-- ==== Sys2Proof/Word.lean ====
section
/-! DEFINITION. The words of the AZ2340's wire: the byte of a frame and the 16-bit word of the time base and the
sequence numbers (R124, R138). Their sums wrap as the spec's counts wrap. -/

namespace Sys2Proof

/-- One byte of a command or response frame (R187). -/
abbrev Byte := BitVec 8

/-- A count of 0–65535 with 65535 followed by 0: the tick count (R124) and the sequence numbers (R138). -/
abbrev Word := BitVec 16

end Sys2Proof
end

