-- ==== Sys2Proof/Config.lean ====
section
/-! DEFINITION. The numbers the spec fixes once for the whole part: its capacities (R163, R192), the fixed lengths of a
conversion (R71, R72), the constants of key tracking (R76, R103, R104, R111) and the reset values (R81, R87, R127); and
the one value that the spec leaves open. -/

namespace Sys2Proof.Config

/-- Records of the slot table (R1). -/
abbrev slotCount : Nat := 32
/-- Conversion lanes (R67). -/
abbrev laneCount : Nat := 4
/-- Pad pins of a lane (R69). -/
abbrev padsPerLane : Nat := 5
/-- Pulse profiles (R81). -/
abbrev profileCount : Nat := 4
/-- A port's share of the sweep queue (R27). -/
def requestsPerPort : Nat := 3
/-- Records an event queue holds at most (R139). -/
def eventCapacity : Nat := 24
/-- Records one FETCH returns at most (R148). -/
def fetchMax : Nat := 8
/-- Longest command payload, in bytes (R177). -/
def commandPayloadMax : Nat := 60
/-- Longest response payload, in bytes (R187). -/
def responsePayloadMax : Nat := 120
/-- Longest slot list of SET_STANDING and SWEEP (R31, R32). -/
def slotListMax : Nat := 32

/-- Part code of the OPEN response (R192). -/
def partCode : Word := 0x2340
/-- Revision of the OPEN response (R192). -/
def revision : Byte := 0x01

/-- The generator of the CRC-8 with the x^8 term left out (R178). -/
def crcPolynomial : Byte := 0x9B
/-- Marker byte of a response frame (R175). -/
def markerResponse : Byte := 0xC3
/-- Marker byte of a busy port (R175). -/
def markerBusy : Byte := 0x3C
/-- Marker byte of a port with nothing pending (R175). -/
def markerNone : Byte := 0x00
/-- The byte a port sends after its marker or its response frame (R175). -/
def fill : Byte := 0xFF

/-- Core clocks of DISCHARGE (R71). -/
def dischargeClocks : Nat := 120
/-- Core clocks of each gap of a pulse (R72). -/
def gapClocks : Nat := 2
/-- The low-count floor: a reading below it carries LOW (R76). -/
def lowFloor : Nat := 8

/-- Bad readings in a row that bring FAULT (R103). -/
def badRunLimit : Nat := 3
/-- Good readings of one calibration (R104, R105). -/
def calibrationReadings : Nat := 4
/-- Where the hold count stops (R111). -/
def holdMax : Nat := 255

/-- Both lengths of every profile at device reset (R81). -/
def profileResetLength : Nat := 24
/-- Counter and latch of a cadence timer at device reset (R127). -/
def cadenceReset : Nat := 1000
/-- The gate's abort limit at device reset (R87). -/
def abortLimitReset : Nat := 3

/-- The level that a port drives onto xSDO while xCS# is low and no transaction runs: R174 says that xSDO is driven there
and gives no level. A free value (log 15), for Port B or not and for the draw's number. -/
opaque openSdo (portB : Bool) (draw : Nat) : Bool

end Sys2Proof.Config
end

