-- ==== Sys2Proof/Syntax.lean ====
section
/-! DEFINITION. The commands of the block: one constructor of `Instr` for each row of spec/opcode_table.json, and the
data a host's command frame carries (the frame itself, R177, and the arguments its payload spells, R191–R208).

A row of a host command (OPEN … ACK, UNKNOWN_CODE) is the ACTION of a command that its port has taken (R181): the row's
operand is the port, and the command's arguments stand in the frame that TRANSACTION_END took from the wire. -/

namespace Sys2Proof

/-- A host port (R173). -/
inductive Port where
  | a
  | b
deriving DecidableEq, Repr

/-- "The other port" (00_scope, Conventions). -/
def Port.other : Port → Port
  | .a => .b
  | .b => .a

/-- A level of the QUIET pin (R86). -/
inductive Level where
  | low
  | high
deriving DecidableEq, Repr

/-- An edge of a port's serial clock (R174). A rising edge samples the data-in pin, whose level comes with it. -/
inductive ClockEdge where
  | rising (sdi : Bool)
  | falling
deriving DecidableEq, Repr

/-- A slot number, 0–31 (R1). -/
abbrev SlotNo := Fin Config.slotCount
/-- A lane, L0–L3 (R67). -/
abbrev LaneNo := Fin Config.laneCount
/-- A profile, P0–P3 (R81). -/
abbrev ProfileNo := Fin Config.profileCount
/-- A set of pads of one lane, bit 0 for S1 to bit 4 for S5 (R191). -/
abbrev PadSet := BitVec Config.padsPerLane

/-- The commands and events of spec/opcode_table.json, in the table's order. -/
inductive Instr where
  /-- RESET# falls, or power comes on (R65). -/
  | deviceReset
  /-- RESET# rises, with QUIET standing at `quiet` (R86). -/
  | resetRelease (quiet : Level)
  /-- QUIET changes to `level` (R92). -/
  | quietLevelChange (level : Level)
  /-- The time base advances (R124). -/
  | tick
  /-- The port's cadence timer takes a tick that stands before it (R128). -/
  | cadenceExpiry (p : Port)
  /-- The falling edge of xCS# (R175). -/
  | transactionStart (p : Port)
  /-- The rising edge of xCS# (R179, R180). -/
  | transactionEnd (p : Port)
  /-- The built response is placed in the response buffer (R181). -/
  | responsePlacement (p : Port)
  /-- The action of a taken frame whose code is none of the nineteen (R182, R186). -/
  | unknownCode (p : Port)
  /-- OPEN (R161, R162). -/
  | openSession (p : Port)
  /-- CLOSE (R164). -/
  | closeSession (p : Port)
  /-- STATUS (R195). -/
  | status (p : Port)
  /-- RESEND (R185). -/
  | resend (p : Port)
  /-- DEFINE (R9–R11). -/
  | define (p : Port)
  /-- MODIFY (R12–R16). -/
  | modify (p : Port)
  /-- DELETE (R17). -/
  | delete (p : Port)
  /-- SUBSCRIBE (R18). -/
  | subscribe (p : Port)
  /-- UNSUBSCRIBE (R19). -/
  | unsubscribe (p : Port)
  /-- READ_SLOT (R23). -/
  | readSlot (p : Port)
  /-- RECALIBRATE (R117). -/
  | recalibrate (p : Port)
  /-- SET_PROFILE (R82). -/
  | setProfile (p : Port)
  /-- SET_STANDING (R31). -/
  | setStanding (p : Port)
  /-- SWEEP (R32, R33). -/
  | sweep (p : Port)
  /-- CANCEL (R39). -/
  | cancel (p : Port)
  /-- SET_CADENCE LOAD (R131). -/
  | load (p : Port)
  /-- SET_CADENCE STAGE (R132). -/
  | stage (p : Port)
  /-- SET_CADENCE STOP (R133). -/
  | stop (p : Port)
  /-- SET_CADENCE RESUME (R134). -/
  | resume (p : Port)
  /-- SET_GATE (R89, R90, R93). -/
  | setGate (p : Port)
  /-- FETCH (R148). -/
  | fetch (p : Port)
  /-- ACK (R150). -/
  | ack (p : Port)
  /-- The 120 core clocks of DISCHARGE have elapsed at the lane (R71). -/
  | dischargeEnd (l : LaneNo)
  /-- The charge phase, or the gap after it, has elapsed at the lane (R72). -/
  | pulsePhaseEnd (l : LaneNo)
  /-- The transfer phase has elapsed at the lane; `crossed`: the reservoir stands at or above the threshold (R73). -/
  | transferPhaseEnd (l : LaneNo) (crossed : Bool)
  /-- The trailing gap of the pulse has elapsed at the lane (R73). -/
  | pulseEnd (l : LaneNo)
  /-- An edge of xSCK (R174). -/
  | serialClockEdge (p : Port) (edge : ClockEdge)
deriving DecidableEq, Repr

/-- A command frame as received (R177, R187). Its length byte is the length of its payload. -/
structure Frame where
  code : Byte
  tag : Byte
  payload : List Byte
  crc : Byte
deriving DecidableEq, Repr

/-- The parameter fields of a slot record, the owner apart (R2). -/
structure Params where
  lane : LaneNo
  pads : PadSet
  profile : ProfileNo
  limit : Nat
  touch : Nat
  release : Nat
  debounce : Nat
  drift : Nat
  hold : Nat
  shared : Bool
  stream : Bool
deriving DecidableEq, Repr

/-- The slot choice of DEFINE (R10). -/
inductive SlotChoice where
  | named (k : SlotNo)
  | any
deriving DecidableEq, Repr

/-- The argument of SWEEP (R32). -/
inductive SweepChoice where
  | standing
  | explicit (slots : List SlotNo)
deriving DecidableEq, Repr

/-- The action of SET_CADENCE (R130). -/
inductive CadenceAction where
  | load
  | stage
  | stop
  | resume
deriving DecidableEq, Repr

/-- The three settings of the quiet gate (R87). -/
structure GateSettings where
  enabled : Bool
  openLevel : Level
  abortLimit : Nat
deriving DecidableEq, Repr

end Sys2Proof
end

