-- ==== Sys2Proof/WellFormed.lean ====
section
/-! DEFINITION. When the data of a command is well formed: the ranges the spec gives each argument (R9, R31, R32, R82,
R89, R130). An operand of `Instr` is a port, a lane, a level or an edge, whose type admits the spec's values and no
other, so every `Instr` is well formed; what a host can get wrong is the payload of its frame, which these check. -/

namespace Sys2Proof

/-- The ranges of R9 for the parameter fields of DEFINE and MODIFY; the lane, the profile and the two options are in
range by their types, and the drift interval and the hold limit are one byte each (R2). -/
def Params.wellFormed (q : Params) : Bool :=
  q.pads != 0 &&
  (decide (64 ≤ q.limit) && decide (q.limit ≤ 30000)) &&
  (decide (1 ≤ q.touch) && decide (q.touch ≤ 4000)) &&
  (decide (1 ≤ q.release) && decide (q.release ≤ q.touch)) &&
  (decide (1 ≤ q.debounce) && decide (q.debounce ≤ 8)) &&
  decide (q.drift ≤ 255) &&
  decide (q.hold ≤ 255)

/-- A charge or transfer length, 2–64 core clocks (R81). -/
def lengthWellFormed (n : Nat) : Bool := decide (2 ≤ n) && decide (n ≤ 64)

/-- A cadence period, 5–50000 ticks (R127, R130). -/
def periodWellFormed (n : Nat) : Bool := decide (5 ≤ n) && decide (n ≤ 50000)

/-- The abort limit of the gate, 1–8 (R87). -/
def GateSettings.wellFormed (g : GateSettings) : Bool :=
  decide (1 ≤ g.abortLimit) && decide (g.abortLimit ≤ 8)

/-- A slot list: at most 32 entries, none twice (R31, R32). -/
def slotListWellFormed (ks : List SlotNo) : Bool :=
  decide (ks.length ≤ Config.slotListMax) && decide ks.Nodup

/-- The count of FETCH, 1–8 (R148). -/
def fetchCountWellFormed (n : Nat) : Bool := decide (1 ≤ n) && decide (n ≤ Config.fetchMax)

end Sys2Proof
end

