-- ==== Sys2Proof/Decode.lean ====
section
/-! DEFINITION. Reading what a host sends: the CRC-8 of a frame (R178), the command frame in the bytes of a transaction
(R177), the command codes (R186). The opcode table gives its rows no bits, so no word spells a row:
`decodeTableWord` answers none. -/

namespace Sys2Proof

/-- One shift of the CRC register (R178). -/
def crcShift (r : Byte) : Byte :=
  if r.msb then (r <<< 1) ^^^ Config.crcPolynomial else r <<< 1

/-- One byte taken into the CRC register (R178). -/
def crcByte (r b : Byte) : Byte :=
  crcShift (crcShift (crcShift (crcShift (crcShift (crcShift (crcShift (crcShift (r ^^^ b))))))))

/-- The CRC-8 of some bytes, from a register of 0x00 (R178). -/
def crc8 (bs : List Byte) : Byte := bs.foldl crcByte 0

/-- A number as one byte. -/
def byteOf (n : Nat) : Byte := BitVec.ofNat 8 n

/-- The bytes of a command frame before its CRC byte (R187). -/
def Frame.body (f : Frame) : List Byte :=
  [f.code, f.tag, byteOf f.payload.length] ++ f.payload

/-- Check 1: the CRC byte is correct (R178, R182). -/
def Frame.crcOk (f : Frame) : Bool := decide (f.crc = crc8 f.body)

/-- The command frame in the bytes received in a transaction, if they hold a complete one (R177): a first byte of 0x00
is NOP, a length byte above 60 is malformed, fewer than L + 4 bytes are incomplete; bytes after the frame are ignored. -/
def readFrame : List Byte → Option Frame
  | code :: tag :: len :: rest =>
    if code = 0 then none
    else if len.toNat ≤ Config.commandPayloadMax && decide (len.toNat + 1 ≤ rest.length) then
      some { code := code, tag := tag, payload := rest.take len.toNat, crc := rest.getD len.toNat 0 }
    else none
  | _ => none

/-! The command codes of R186. -/

def codeOpen : Byte := 0x01
def codeClose : Byte := 0x02
def codeStatus : Byte := 0x03
def codeResend : Byte := 0x04
def codeDefine : Byte := 0x10
def codeModify : Byte := 0x11
def codeDelete : Byte := 0x12
def codeSubscribe : Byte := 0x13
def codeUnsubscribe : Byte := 0x14
def codeReadSlot : Byte := 0x15
def codeRecalibrate : Byte := 0x16
def codeSetProfile : Byte := 0x18
def codeSetStanding : Byte := 0x20
def codeSweep : Byte := 0x21
def codeCancel : Byte := 0x22
def codeSetCadence : Byte := 0x28
def codeSetGate : Byte := 0x30
def codeFetch : Byte := 0x38
def codeAck : Byte := 0x39

/-- The nineteen command codes (R186). -/
def commandCodes : List Byte :=
  [codeOpen, codeClose, codeStatus, codeResend, codeDefine, codeModify, codeDelete, codeSubscribe, codeUnsubscribe,
   codeReadSlot, codeRecalibrate, codeSetProfile, codeSetStanding, codeSweep, codeCancel, codeSetCadence, codeSetGate,
   codeFetch, codeAck]

/-- The action byte of a SET_CADENCE frame (R205), where it names one of the four actions. -/
def Frame.cadenceAction (f : Frame) : Option CadenceAction :=
  match f.payload with
  | a :: _ =>
    if a = 1 then some .load else if a = 2 then some .stage else if a = 3 then some .stop
    else if a = 4 then some .resume else none
  | [] => none

/-- Whether a taken SET_CADENCE frame is the affair of the table's row for `action`: its action byte names that action,
or it names none of the four, in which case it is refused alike under each of the rows (R130; DESIGN CHOICE, log 6). -/
def Frame.isCadence (action : CadenceAction) (f : Frame) : Bool :=
  decide (f.code = codeSetCadence) &&
    (decide (f.cadenceAction = some action) || decide (f.cadenceAction = none))

/-- The row that a word of the opcode table spells. The table gives no row any bits (98_reader: no row has fixed or
field bits), so no word spells a command. -/
def decodeTableWord (_nbits _w : Nat) : Option Instr := none

end Sys2Proof
end

