-- ==== Sys2Proof/Machine/State.lean ====
section
/-! DEFINITION. The state of the hub, block by block (00_scope, Block diagram), as plain data; what a step can answer
besides a next state; and the state at device reset. -/

namespace Sys2Proof.Machine

/-! ## A pair indexed by the ports -/

/-- One item for each of the two ports. -/
structure PerPort (α : Type) where
  a : α
  b : α
deriving DecidableEq, Repr

def PerPort.get {α : Type} (x : PerPort α) : Port → α
  | .a => x.a
  | .b => x.b

def PerPort.set {α : Type} (x : PerPort α) (p : Port) (v : α) : PerPort α :=
  match p with
  | .a => { x with a := v }
  | .b => { x with b := v }

/-! ## Slots -/

/-- A reading of a conversion (R76): its value and the flags SAT and LOW. -/
structure Reading where
  value : Nat
  sat : Bool
  low : Bool
deriving DecidableEq, Repr

/-- A slot's last reading (R4): the reading and the tick at which it was handed over. -/
structure LastReading where
  reading : Reading
  tick : Word
deriving DecidableEq, Repr

/-- The key states of R3. -/
inductive KeyState where
  | uncal
  | idle
  | arming
  | held
  | lifting
  | fault
deriving DecidableEq, Repr

/-- The key fields of a slot record (R3, R100). -/
structure KeyFields where
  state : KeyState
  baseline : Option Nat
  confirm : Nat
  drift : Nat
  badRun : Nat
  hold : Nat
  calSum : Nat
  calCount : Nat
deriving DecidableEq, Repr

/-- The key fields at DEFINE (R3, R11), after RECALIBRATE (R117) and after a measurement MODIFY (R14). -/
def KeyFields.initial : KeyFields :=
  { state := .uncal, baseline := none, confirm := 0, drift := 0, badRun := 0, hold := 0, calSum := 0, calCount := 0 }

/-- A DEFINED slot record (R2, R3). `subs` is the subscriber set. -/
structure SlotRecord where
  owner : Port
  params : Params
  subs : PerPort Bool
  key : KeyFields
  last : Option LastReading
  inFlight : Bool
deriving DecidableEq, Repr

/-! ## Sweep requests -/

/-- The origin of a request (R25). -/
inductive Origin where
  | command
  | timer
deriving DecidableEq, Repr

/-- A sweep request (R25). `engaged` holds its engaged slots, in the order of its remaining list. -/
structure SweepRequest where
  id : Nat
  port : Port
  session : Nat
  origin : Origin
  remaining : List SlotNo
  measured : Nat
  skipped : Nat
  aborts : Nat
  engaged : List SlotNo
  cancelling : Bool
  stale : Bool
deriving DecidableEq, Repr

/-! ## Lanes, profiles, rounds -/

/-- The four phases of a pulse (R72). The trailing gap carries the comparison made at the end of the transfer phase,
on which the lane acts when the gap ends (R73). -/
inductive Phase where
  | charge
  | gapAfterCharge
  | transfer
  | gapAfterTransfer (crossed : Bool)
deriving DecidableEq, Repr

/-- The lane states of R67. -/
inductive LaneState where
  | idle
  | discharge
  | pulsing (phase : Phase)
  | ended
deriving DecidableEq, Repr

/-- A conversion lane (R67). `elapsed` is the model's own: the core clocks that the phases ended so far have lasted
since round start (R71, R72, R85). -/
structure Lane where
  state : LaneState
  slot : Option SlotNo
  pads : PadSet
  charge : Option Nat
  transfer : Option Nat
  limit : Option Nat
  counter : Nat
  reading : Option Reading
  elapsed : Nat
deriving DecidableEq, Repr

/-- A lane in IDLE (R67). -/
def Lane.idle : Lane :=
  { state := .idle, slot := none, pads := 0, charge := none, transfer := none, limit := none, counter := 0,
    reading := none, elapsed := 0 }

/-- A pulse profile: its two lengths in core clocks (R81). -/
structure Profile where
  charge : Nat
  transfer : Nat
deriving DecidableEq, Repr

/-- The round record (R48): the lane table and the leader port. Its engaged list is the engaged-slot field of the
queued requests, which the spec keeps equal to it (R48): `State.engagedList` reads it. -/
structure Round where
  lanes : Vector (Option SlotNo) Config.laneCount
  leader : Port
deriving DecidableEq, Repr

/-! ## The quiet gate -/

/-- The observed gate state (R91). -/
inductive GateState where
  | opened
  | shut
deriving DecidableEq, Repr

/-- The quiet gate (R86–R88): its settings, its holder, the line level and the observed state. -/
structure Gate where
  settings : GateSettings
  holder : Option Port
  line : Level
  observed : GateState
deriving DecidableEq, Repr

/-! ## Events -/

/-- The kinds of event record (R140). -/
inductive EventKind where
  | press
  | release
  | fault
  | calDone
  | reading
  | sweepDone
  | sweepAborted
  | sweepCancelled
  | cadenceSlip
  | slotGone
deriving DecidableEq, Repr

/-- What a block posts: the fields of a record that the posting block supplies (R140, R141). -/
structure Event where
  kind : EventKind
  slot : Option SlotNo
  sweepId : Nat
  value : Int
  aux : Option Nat
  sat : Bool
  low : Bool
  forced : Bool
  washeld : Bool
deriving DecidableEq, Repr

/-- A stored event record (R140). -/
structure EventRecord where
  seq : Word
  event : Event
  gap : Bool
  time : Word
  delivered : Bool
deriving DecidableEq, Repr

/-- A port's event queue, head first (R138). -/
structure EventQueue where
  records : List EventRecord
  nextSeq : Word
deriving DecidableEq, Repr

/-! ## Cadence timers and sessions -/

/-- A cadence timer (R127). `owed` is the model's own: the ticks of the time base that stand before the timer and that
it has not taken yet (R124, R128); the tick that makes an expiry waits there for its CADENCE_EXPIRY. -/
structure Cadence where
  running : Bool
  counter : Nat
  latch : Nat
  owed : Nat
deriving DecidableEq, Repr

/-- A port's session (R159). -/
structure Session where
  isOpen : Bool
  number : Nat
  counter : Nat
deriving DecidableEq, Repr

/-! ## Host ports -/

/-- The status codes of R183. -/
inductive Status where
  | ok
  | badFrame
  | unknown
  | noSession
  | badArg
  | notFound
  | denied
  | inFlight
  | qFull
  | notFree
  | noFree
  | badSeq
deriving DecidableEq, Repr

/-- A response frame: its marker and its CRC follow from these fields (R187). -/
structure Response where
  tag : Byte
  status : Status
  session : Nat
  payload : List Byte
deriving DecidableEq, Repr

/-- A response on its way to the host; `ofResend`: it is a response to RESEND (R179, R185). -/
structure Outgoing where
  response : Response
  ofResend : Bool
deriving DecidableEq, Repr

/-- The command a port is executing (R180, R181): none; a taken frame whose action is still to come; an answer that
its action has built and that is not placed yet. The executing flag is set in the last two. -/
inductive Work where
  | none
  | taken (f : Frame)
  | answered (r : Outgoing)
deriving DecidableEq, Repr

/-- The marker of a transaction (R175). -/
inductive Marker where
  | response
  | busy
  | none
deriving DecidableEq, Repr

/-- A running transaction (R173, R174): its marker, the whole bytes received, and the bits, fewer than eight, received
after them, first bit first. As many bits have been shifted out as in. -/
structure Transaction where
  marker : Marker
  received : List Byte
  bits : List Bool
deriving DecidableEq, Repr

/-- A host port (R173) and two of its pins: whether xCS# is low, and the data-out pin, absent while tri-stated (R174).
`draws` counts the free levels that xSDO has taken, in a field of the model's own (log 15). -/
structure HostPort where
  csLow : Bool
  transaction : Option Transaction
  work : Work
  buffer : Option Outgoing
  lastResponse : Option Response
  sdo : Option Bool
  draws : Nat
deriving DecidableEq, Repr

/-- All that the hub keeps for one port. -/
structure PortState where
  host : HostPort
  session : Session
  standing : List SlotNo
  cadence : Cadence
  events : EventQueue
deriving DecidableEq, Repr

/-! ## The hub -/

/-- The hub. `resetLow` is the level of the RESET# pin. `pending` holds the commands waiting at the block, first in,
first out. -/
structure State where
  resetLow : Bool
  tick : Word
  slots : Vector (Option SlotRecord) Config.slotCount
  profiles : Vector Profile Config.profileCount
  queue : List SweepRequest
  nextId : Nat
  round : Option Round
  lastLeader : Option Port
  lanes : Vector Lane Config.laneCount
  gate : Gate
  ports : PerPort PortState
  pending : List Instr
deriving DecidableEq, Repr

/-- The hub raises no fault: no rule of the spec stops it. -/
inductive Fault where
deriving DecidableEq, Repr

/-- Reasons for which a command has no meaning. -/
inductive Refusal where
  /-- Raised by an arm of `exec` whose command has no meaning yet (safe: the run stops). No arm raises it now. -/
  | notModelled (mnemonic : String)
deriving DecidableEq, Repr

/-! ## Device reset -/

/-- A host port at device reset (R173), its data-out pin tri-stated (R174). The host decides the level of xCS#: HIGH here
(DESIGN CHOICE, log 15). -/
def HostPort.reset : HostPort :=
  { csLow := false, transaction := none, work := .none, buffer := none, lastResponse := none, sdo := none, draws := 0 }

/-- What the hub keeps for a port, at device reset (R30, R127, R138, R159, R173). -/
def PortState.reset : PortState :=
  { host := HostPort.reset
    session := { isOpen := false, number := 0, counter := 0 }
    standing := []
    cadence := { running := false, counter := Config.cadenceReset, latch := Config.cadenceReset, owed := 0 }
    events := { records := [], nextSeq := 0 } }

/-- The gate at device reset (R87, R88, R91). The line level has no reset value in the spec: LOW here (DESIGN CHOICE,
log 1); RESET_RELEASE writes it before any command can read it (R86). -/
def Gate.reset : Gate :=
  { settings := { enabled := false, openLevel := .high, abortLimit := Config.abortLimitReset }
    holder := none
    line := .low
    observed := .opened }

/-- The hub at device reset, RESET# low and no command waiting (R1, R27, R29, R47, R67, R81, R124). -/
def State.reset : State :=
  { resetLow := true
    tick := 0
    slots := Vector.replicate _ none
    profiles := Vector.replicate _ { charge := Config.profileResetLength, transfer := Config.profileResetLength }
    queue := []
    nextId := 1
    round := none
    lastLeader := none
    lanes := Vector.replicate _ Lane.idle
    gate := Gate.reset
    ports := { a := PortState.reset, b := PortState.reset }
    pending := [] }

end Sys2Proof.Machine
end

