-- ==== Sys2Proof/Machine/Flags.lean ====
section
/-! DEFINITION. How fields stand on the wire: status codes, record kinds, flag and option bits, numbers (R183,
R187–R189, R191, R195–R197). -/

namespace Sys2Proof.Machine

/-! ## Numbers -/

/-- A 16-bit word as two bytes, most significant first (R191). -/
def wordBytes (w : Word) : List Byte := [w.extractLsb' 8 8, w.extractLsb' 0 8]

/-- A number of two bytes (R191). -/
def numBytes (n : Nat) : List Byte := wordBytes (BitVec.ofNat 16 n)

/-- A signed number of two bytes, two's complement (R188). -/
def intBytes (i : Int) : List Byte := wordBytes (BitVec.ofInt 16 i)

/-- The number in two bytes, most significant first (R191). -/
def numOf (hi lo : Byte) : Nat := hi.toNat * 256 + lo.toNat

/-- Yes or no (R191). -/
def yesNoByte (b : Bool) : Byte := if b then 1 else 0

/-- A bit of a flag or option byte. -/
def flagBit (b : Bool) (n : Nat) : Byte := if b then BitVec.ofNat 8 (2 ^ n) else 0

/-- A port; 0xFF for none (R191). -/
def portByte : Option Port → Byte
  | some .a => 0
  | some .b => 1
  | none => 0xFF

/-- A QUIET level (R191). -/
def levelByte : Level → Byte
  | .low => 0
  | .high => 1

/-- The observed gate state (R195, R206). -/
def gateStateByte : GateState → Byte
  | .shut => 0
  | .opened => 1

/-! ## Status codes and record kinds -/

/-- The status byte of R183. -/
def statusByte : Status → Byte
  | .ok => 0x00
  | .badFrame => 0x01
  | .unknown => 0x02
  | .noSession => 0x03
  | .badArg => 0x04
  | .notFound => 0x05
  | .denied => 0x06
  | .inFlight => 0x07
  | .qFull => 0x08
  | .notFree => 0x09
  | .noFree => 0x0A
  | .badSeq => 0x0B

/-- The kind byte of R188. -/
def kindByte : EventKind → Byte
  | .press => 0x01
  | .release => 0x02
  | .fault => 0x03
  | .calDone => 0x04
  | .reading => 0x05
  | .sweepDone => 0x10
  | .sweepAborted => 0x11
  | .sweepCancelled => 0x12
  | .cadenceSlip => 0x18
  | .slotGone => 0x20

/-- The key state byte of R189. -/
def keyStateByte : KeyState → Byte
  | .uncal => 0
  | .idle => 1
  | .arming => 2
  | .held => 3
  | .lifting => 4
  | .fault => 5

/-! ## Event records -/

/-- The flags byte of a record (R188): bit 0 SAT, 1 LOW, 2 FORCED, 3 WASHELD, 7 GAP. -/
def recordFlags (r : EventRecord) : Byte :=
  flagBit r.event.sat 0 ||| flagBit r.event.low 1 ||| flagBit r.event.forced 2 ||| flagBit r.event.washeld 3 |||
    flagBit r.gap 7

/-- The 12 bytes of an event record (R188). -/
def recordBytes (r : EventRecord) : List Byte :=
  wordBytes r.seq ++
  [kindByte r.event.kind,
   (match r.event.slot with | some k => byteOf k.val | none => 0xFF),
   byteOf r.event.sweepId,
   recordFlags r] ++
  intBytes r.event.value ++
  (match r.event.aux with | some n => numBytes n | none => [0xFF, 0xFF]) ++
  wordBytes r.time

/-! ## The slot snapshot -/

/-- The subscribers byte (R189): bit 0 A, bit 1 B. -/
def subsByte (subs : PerPort Bool) : Byte := flagBit subs.a 0 ||| flagBit subs.b 1

/-- The options byte of a snapshot (R189): bit 0 shared, 1 stream, 2 in flight. -/
def optionsByte (r : SlotRecord) : Byte :=
  flagBit r.params.shared 0 ||| flagBit r.params.stream 1 ||| flagBit r.inFlight 2

/-- The last 5 bytes of a snapshot: the last reading, zeros when absent (R189). -/
def lastReadingBytes : Option LastReading → List Byte
  | none => [0, 0, 0, 0, 0]
  | some l =>
    numBytes l.reading.value ++ [flagBit l.reading.sat 0 ||| flagBit l.reading.low 1] ++ wordBytes l.tick

/-- The 29 bytes of a slot snapshot (R189). -/
def snapshotBytes (k : SlotNo) (r : SlotRecord) : List Byte :=
  [byteOf k.val, portByte (some r.owner), subsByte r.subs, byteOf r.params.lane.val, r.params.pads.setWidth 8,
   byteOf r.params.profile.val] ++
  numBytes r.params.limit ++ numBytes r.params.touch ++ numBytes r.params.release ++
  [byteOf r.params.debounce, byteOf r.params.drift, byteOf r.params.hold, optionsByte r, keyStateByte r.key.state] ++
  numBytes (r.key.baseline.getD 0) ++
  [byteOf r.key.confirm, byteOf r.key.drift, byteOf r.key.badRun, byteOf r.key.hold, byteOf r.key.calCount] ++
  lastReadingBytes r.last

/-! ## Response frames -/

/-- The bytes of a response frame before its CRC (R187). -/
def responseBody (r : Response) : List Byte :=
  [Config.markerResponse, r.tag, statusByte r.status, byteOf r.session, byteOf r.payload.length] ++ r.payload

/-- The bytes of a response frame, marker through CRC (R187). -/
def responseBytes (r : Response) : List Byte := responseBody r ++ [crc8 (responseBody r)]

end Sys2Proof.Machine
end

