-- ==== Sys2Proof/Machine/Operands.lean ====
section
/-! DEFINITION. The arguments that a command's payload spells, and check 4 with them: a reader answers none where the
payload's length or an argument is not valid for the command, which is refused with BADARG (R182, R184, R191, R198–R208).
-/

namespace Sys2Proof.Machine

/-! ## Single bytes (R191) -/

def slotNo? (b : Byte) : Option SlotNo :=
  if h : b.toNat < Config.slotCount then some ⟨b.toNat, h⟩ else none

def laneNo? (b : Byte) : Option LaneNo :=
  if h : b.toNat < Config.laneCount then some ⟨b.toNat, h⟩ else none

def profileNo? (b : Byte) : Option ProfileNo :=
  if h : b.toNat < Config.profileCount then some ⟨b.toNat, h⟩ else none

/-- A pad set byte: bits 5–7 clear; that it is not empty is a check of `Params.wellFormed`. -/
def padSet? (b : Byte) : Option PadSet :=
  if b.toNat < 32 then some (b.setWidth Config.padsPerLane) else none

def yesNo? (b : Byte) : Option Bool :=
  if b = 0 then some false else if b = 1 then some true else none

def level? (b : Byte) : Option Level :=
  if b = 0 then some .low else if b = 1 then some .high else none

/-- The options byte of DEFINE and MODIFY (R198): bit 0 shared, bit 1 stream, the others clear. -/
def options? (b : Byte) : Option (Bool × Bool) :=
  if b.toNat < 4 then some (b.getLsbD 0, b.getLsbD 1) else none

/-! ## Slot commands -/

/-- The one-byte payload of DELETE, SUBSCRIBE, UNSUBSCRIBE, RECALIBRATE and READ_SLOT (R199, R200). -/
def slotArg : List Byte → Option SlotNo
  | [b] => slotNo? b
  | _ => none

/-- Bytes 1 to 13 of the payload of DEFINE and MODIFY (R198), with the ranges of R9. -/
def paramsArg : List Byte → Option Params
  | [ln, pd, pf, limHi, limLo, toHi, toLo, reHi, reLo, deb, drift, hold, opts] =>
    match laneNo? ln, padSet? pd, profileNo? pf, options? opts with
    | some lane, some pads, some profile, some (shared, stream) =>
      let q : Params :=
        { lane := lane, pads := pads, profile := profile, limit := numOf limHi limLo, touch := numOf toHi toLo,
          release := numOf reHi reLo, debounce := deb.toNat, drift := drift.toNat, hold := hold.toNat,
          shared := shared, stream := stream }
      if q.wellFormed then some q else none
    | _, _, _, _ => none
  | _ => none

/-- The slot choice byte of DEFINE (R198). -/
def slotChoice? (b : Byte) : Option SlotChoice :=
  if b = 0xFF then some .any else (slotNo? b).map .named

/-- The payload of DEFINE (R9, R198). -/
def defineArg : List Byte → Option (SlotChoice × Params)
  | c :: rest =>
    match slotChoice? c, paramsArg rest with
    | some choice, some q => some (choice, q)
    | _, _ => none
  | [] => none

/-- The payload of MODIFY (R12, R198). -/
def modifyArg : List Byte → Option (SlotNo × Params)
  | c :: rest =>
    match slotNo? c, paramsArg rest with
    | some k, some q => some (k, q)
    | _, _ => none
  | [] => none

/-! ## Profile, sweep and cadence commands -/

/-- The payload of SET_PROFILE (R201). -/
def setProfileArg : List Byte → Option (ProfileNo × Profile)
  | [n, c, t] =>
    match profileNo? n with
    | some i =>
      if lengthWellFormed c.toNat && lengthWellFormed t.toNat then
        some (i, { charge := c.toNat, transfer := t.toNat })
      else none
    | none => none
  | _ => none

/-- The slot numbers in some bytes, none where a byte is above 31. -/
def slotNos? : List Byte → Option (List SlotNo)
  | [] => some []
  | b :: bs =>
    match slotNo? b, slotNos? bs with
    | some k, some ks => some (k :: ks)
    | _, _ => none

/-- A list of slots: a count byte and as many slot numbers, at most 32 and none twice (R191, R202). -/
def slotListArg : List Byte → Option (List SlotNo)
  | n :: bs =>
    if bs.length = n.toNat then
      match slotNos? bs with
      | some ks => if slotListWellFormed ks then some ks else none
      | none => none
    else none
  | [] => none

/-- The payload of SWEEP (R203): 0xFF alone, or a list of 1–32 slots. -/
def sweepArg : List Byte → Option SweepChoice
  | n :: bs =>
    if n = 0xFF then (if bs.isEmpty then some .standing else none)
    else if n = 0 then none
    else (slotListArg (n :: bs)).map .explicit
  | [] => none

/-- The payload of CANCEL (R204). -/
def cancelArg : List Byte → Option Nat
  | [b] => if b = 0 then none else some b.toNat
  | _ => none

/-- The period of a SET_CADENCE payload of 3 bytes, for LOAD and STAGE (R205). -/
def periodArg : List Byte → Option Nat
  | [_, hi, lo] => if periodWellFormed (numOf hi lo) then some (numOf hi lo) else none
  | _ => none

/-! ## Gate and event commands -/

/-- The payload of SET_GATE (R206). -/
def gateArg : List Byte → Option GateSettings
  | [e, l, n] =>
    match yesNo? e, level? l with
    | some enabled, some lv =>
      let g : GateSettings := { enabled := enabled, openLevel := lv, abortLimit := n.toNat }
      if g.wellFormed then some g else none
    | _, _ => none
  | _ => none

/-- The payload of FETCH (R207). -/
def fetchArg : List Byte → Option Nat
  | [n] => if fetchCountWellFormed n.toNat then some n.toNat else none
  | _ => none

/-- The payload of ACK (R208). -/
def ackArg : List Byte → Option Word
  | [hi, lo] => some (hi ++ lo)
  | _ => none

end Sys2Proof.Machine
end

