-- ==== Sys2Proof/Machine/Ops.lean ====
section
/-! DEFINITION. The named operations over the hub's state that the meanings share: reading and writing one port's or
one slot's state, posting an event (R143–R146), and executing a taken command with its checks and its answer
(R181, R182). -/

namespace Sys2Proof.Machine

/-! ## Reading and writing parts of the state -/

/-- All that the hub keeps for port `p`. -/
def State.port (s : State) (p : Port) : PortState := s.ports.get p

def State.setPort (s : State) (p : Port) (x : PortState) : State := { s with ports := s.ports.set p x }

/-- Port `p`'s host port state (R173). -/
def State.host (s : State) (p : Port) : HostPort := (s.port p).host

def State.setHost (s : State) (p : Port) (h : HostPort) : State := s.setPort p { s.port p with host := h }

/-- Port `p`'s session (R159). -/
def State.session (s : State) (p : Port) : Session := (s.port p).session

def State.setSession (s : State) (p : Port) (x : Session) : State := s.setPort p { s.port p with session := x }

/-- Port `p`'s standing list (R30). -/
def State.standing (s : State) (p : Port) : List SlotNo := (s.port p).standing

def State.setStanding (s : State) (p : Port) (ks : List SlotNo) : State := s.setPort p { s.port p with standing := ks }

/-- Port `p`'s cadence timer (R127). -/
def State.cadence (s : State) (p : Port) : Cadence := (s.port p).cadence

def State.setCadence (s : State) (p : Port) (c : Cadence) : State := s.setPort p { s.port p with cadence := c }

/-- Port `p`'s event queue (R138). -/
def State.events (s : State) (p : Port) : EventQueue := (s.port p).events

def State.setEvents (s : State) (p : Port) (q : EventQueue) : State := s.setPort p { s.port p with events := q }

/-- Slot `k`'s record, none where it is FREE (R1). -/
def State.slot (s : State) (k : SlotNo) : Option SlotRecord := s.slots[k]

def State.setSlot (s : State) (k : SlotNo) (r : Option SlotRecord) : State :=
  { s with slots := s.slots.set k.val r k.isLt }

def State.lane (s : State) (l : LaneNo) : Lane := s.lanes[l]

def State.setLane (s : State) (l : LaneNo) (x : Lane) : State := { s with lanes := s.lanes.set l.val x l.isLt }

/-- The four lanes in lane order (R57). -/
def allLanes : List LaneNo := [0, 1, 2, 3]

/-- The event `f s` in a running hub; while RESET# is low every event but the two of RESET# changes nothing
(R79, R86, R124, R159, R173, R174). -/
def State.whileRunning (s : State) (f : State → State) : Host.Outcome State Fault Refusal :=
  .next (if s.resetLow then s else f s)

/-! ## Posting an event -/

/-- The tail record marked with GAP (R145). -/
def markTail : List EventRecord → List EventRecord
  | [] => []
  | [r] => [{ r with gap := true }]
  | r :: r' :: rs => r :: markTail (r' :: rs)

/-- The event stored at the tail with the next sequence number and the tick (R144). -/
def EventQueue.store (q : EventQueue) (e : Event) (t : Word) : EventQueue :=
  { records := q.records ++ [{ seq := q.nextSeq, event := e, gap := false, time := t, delivered := false }]
    nextSeq := q.nextSeq + 1 }

/-- What the queue of an OPEN port does with an event: it is stored while fewer than 24 records are held, and is
otherwise discarded with the tail marked GAP (R144, R145). -/
def EventQueue.post (q : EventQueue) (e : Event) (t : Word) : EventQueue :=
  if q.records.length < Config.eventCapacity then q.store e t else { q with records := markTail q.records }

/-- An event posted to port `p`: discarded while the session is CLOSED (R143), else handed to the queue. -/
def State.post (s : State) (p : Port) (e : Event) : State :=
  if (s.session p).isOpen then s.setEvents p ((s.events p).post e s.tick) else s

/-- Events posted one by one in the order of the list (R146). -/
def State.postAll (s : State) (es : List (Port × Event)) : State := es.foldl (fun s pe => s.post pe.1 pe.2) s

/-- An event posted to every port of a subscriber set, A then B (R121). -/
def State.postSubs (s : State) (subs : PerPort Bool) (e : Event) : State :=
  s.postAll ((if subs.a then [(Port.a, e)] else []) ++ (if subs.b then [(Port.b, e)] else []))

/-! ## The events of R141 -/

/-- A key event of slot `k` (R119). -/
def keyEvent (k : SlotNo) (kind : EventKind) (value : Int) (forced washeld : Bool) : Event :=
  { kind := kind, slot := some k, sweepId := 0, value := value, aux := none, sat := false, low := false,
    forced := forced, washeld := washeld }

/-- A READING event: the reading and the baseline after it (R120). -/
def readingEvent (k : SlotNo) (rd : Reading) (baseline : Option Nat) : Event :=
  { kind := .reading, slot := some k, sweepId := 0, value := rd.value, aux := baseline, sat := rd.sat, low := rd.low,
    forced := false, washeld := false }

/-- A sweep event or a CADENCE_SLIP: no slot, no flags (R37, R42). -/
def sweepEvent (kind : EventKind) (id : Nat) (value : Nat) (aux : Option Nat) : Event :=
  { kind := kind, slot := none, sweepId := id, value := value, aux := aux, sat := false, low := false,
    forced := false, washeld := false }

/-- SLOT_GONE (R21). -/
def slotGoneEvent (k : SlotNo) : Event := keyEvent k .slotGone 0 false false

/-- SWEEP_DONE of a request: measured and skipped counts (R42). -/
def doneEvent (r : SweepRequest) : Event := sweepEvent .sweepDone r.id r.measured (some r.skipped)

/-- SWEEP_CANCELLED of a request: the slots left in its list (R42). -/
def cancelledEvent (r : SweepRequest) : Event := sweepEvent .sweepCancelled r.id r.remaining.length none

/-- SWEEP_ABORTED of a request: the slots left in its list (R42). -/
def abortedEvent (r : SweepRequest) : Event := sweepEvent .sweepAborted r.id r.remaining.length none

/-- A sweep event about a request goes to its port, and is posted only if the request is not stale (R43). -/
def SweepRequest.report (r : SweepRequest) (e : Event) : List (Port × Event) :=
  if r.stale then [] else [(r.port, e)]

/-! ## Executing a taken command -/

/-- The executing flag (R173): set from the taking of a command to the placement of its response. -/
def HostPort.executing (h : HostPort) : Bool := decide (h.work ≠ .none)

/-- The frame that port `p` has taken and whose action is still to come (R180, R181). -/
def State.takenFrame (s : State) (p : Port) : Option Frame :=
  match (s.host p).work with
  | .taken f => some f
  | _ => none

/-- The action's response is built and waits for its placement (R181). -/
def State.answer (s : State) (p : Port) (r : Outgoing) : State :=
  s.setHost p { s.host p with work := .answered r }

/-- A response to a command with tag `tag`, its session number field taken after the action (R160). -/
def State.respond (s : State) (p : Port) (tag : Byte) (st : Status) (payload : List Byte) : State :=
  s.answer p { response := { tag := tag, status := st, session := (s.session p).number, payload := payload }
               ofResend := false }

/-- What checks 4 to 9 and the effect of a command come to: the status of the first check that fails, or the state
after the effect and the response payload (R182). -/
inductive Answer where
  | refuse (st : Status)
  | accept (s : State) (payload : List Byte)

/-- The response to a command whose checks have come to `a`: a refusal changes nothing but the port's answer (R182). -/
def State.respondAnswer (s : State) (p : Port) (tag : Byte) : Answer → State
  | .refuse st => s.respond p tag st []
  | .accept s' payload => s'.respond p tag .ok payload

/-- Checks 1 and 3, and then the command's own checks and effect (R182). -/
def State.execute (s : State) (p : Port) (f : Frame) (needsSession : Bool) (act : State → Frame → Answer) : State :=
  if f.crcOk then
    if needsSession && !(s.session p).isOpen then s.respond p f.tag .noSession []
    else s.respondAnswer p f.tag (act s f)
  else s.respond p f.tag .badFrame []

/-- The action of a taken command (R181): `mine` tells the frames that are this row's affair. Where port `p` has taken
no such frame there is no such command to execute, and nothing changes (log 3). -/
def runCommand (mine : Frame → Bool) (needsSession : Bool) (act : State → Frame → Answer) (p : Port) (s : State) :
    Host.Outcome State Fault Refusal :=
  s.whileRunning fun s =>
    match s.takenFrame p with
    | none => s
    | some f => if mine f then s.execute p f needsSession act else s

/-- The frames with a given command code (R186). -/
def hasCode (code : Byte) (f : Frame) : Bool := decide (f.code = code)

end Sys2Proof.Machine
end

