-- ==== Sys2Proof/Machine/KeyTracker.lean ====
section
/-! DEFINITION. Key tracking: what a reading does to the key fields of its slot (R102–R116), what a detection-only
MODIFY does to them (R15), and the forced RELEASE of RECALIBRATE and of a measurement MODIFY (R14, R117). -/

namespace Sys2Proof.Machine

/-- A key event before its slot is named (R119). -/
structure KeyEvent where
  kind : EventKind
  value : Int
  forced : Bool
  washeld : Bool
deriving DecidableEq, Repr

/-- A reading is bad if it carries SAT or LOW (R102). -/
def Reading.bad (rd : Reading) : Bool := rd.sat || rd.low

/-- The baseline of a slot that has one (R101). UNCAL apart, a slot that takes decisions has one; where R101 rules the
absence out the model reads 0 (log 7). -/
def KeyFields.base (k : KeyFields) : Nat := k.baseline.getD 0

/-- The delta of a good reading against the baseline (R102). -/
def KeyFields.delta (k : KeyFields) (v : Nat) : Int := (k.base : Int) - v

def pressEvent (value : Int) : KeyEvent := { kind := .press, value := value, forced := false, washeld := false }

def releaseEvent (value : Int) (forced : Bool) : KeyEvent :=
  { kind := .release, value := value, forced := forced, washeld := false }

def calDoneEvent (value : Int) : KeyEvent := { kind := .calDone, value := value, forced := false, washeld := false }

def faultEvent (value : Int) (washeld : Bool) : KeyEvent :=
  { kind := .fault, value := value, forced := false, washeld := washeld }

/-! ## Good readings, state by state -/

/-- A good reading in UNCAL (R104, R105). -/
def goodUncal (k : KeyFields) (v : Nat) : KeyFields × Option KeyEvent :=
  let sum := k.calSum + v
  let count := k.calCount + 1
  if count < Config.calibrationReadings then ({ k with calSum := sum, calCount := count }, none)
  else
    ({ k with state := .idle, baseline := some (sum / Config.calibrationReadings), confirm := 0, drift := 0, hold := 0,
              calSum := 0, calCount := 0 },
     some (calDoneEvent ((sum / Config.calibrationReadings : Nat) : Int)))

/-- The baseline moved one count toward a reading (R109). -/
def driftStep (b v : Nat) : Nat := if b < v then b + 1 else if v < b then b - 1 else b

/-- A good reading in IDLE: the start of a press, a reverse rebaseline, or one more reading toward drift
(R107, R108, R109). -/
def goodIdle (q : Params) (k : KeyFields) (v : Nat) : KeyFields × Option KeyEvent :=
  if (q.touch : Int) ≤ k.delta v then
    if q.debounce = 1 then
      ({ k with state := .held, confirm := 0, hold := 0, drift := 0 }, some (pressEvent (k.delta v)))
    else ({ k with state := .arming, confirm := 1, drift := 0 }, none)
  else if k.base + q.touch < v then ({ k with baseline := some v, drift := 0 }, none)
  else if q.drift = 0 then (k, none)
  else if k.drift + 1 < q.drift then ({ k with drift := k.drift + 1 }, none)
  else ({ k with baseline := some (driftStep k.base v), drift := 0 }, none)

/-- A good reading in ARMING (R110). -/
def goodArming (q : Params) (k : KeyFields) (v : Nat) : KeyFields × Option KeyEvent :=
  if (q.touch : Int) ≤ k.delta v then
    if k.confirm + 1 = q.debounce then
      ({ k with state := .held, confirm := 0, hold := 0 }, some (pressEvent (k.delta v)))
    else ({ k with confirm := k.confirm + 1 }, none)
  else ({ k with state := .idle, confirm := 0, drift := 0 }, none)

/-- The hold count raised by one, to at most 255 (R111). -/
def KeyFields.raisedHold (k : KeyFields) : Nat := min Config.holdMax (k.hold + 1)

/-- The release by force at the hold limit: the reading becomes the baseline (R113). -/
def forceRelease (k : KeyFields) (v : Nat) : KeyFields × Option KeyEvent :=
  ({ k with state := .idle, baseline := some v, confirm := 0, hold := 0, drift := 0 },
   some (releaseEvent (k.delta v) true))

/-- The release by the release threshold (R111, R112). -/
def confirmRelease (k : KeyFields) (v : Nat) : KeyFields × Option KeyEvent :=
  ({ k with state := .idle, confirm := 0, hold := 0, drift := 0 }, some (releaseEvent (k.delta v) false))

/-- A good reading in HELD (R111). -/
def goodHeld (q : Params) (k : KeyFields) (v : Nat) : KeyFields × Option KeyEvent :=
  if q.hold ≠ 0 ∧ k.raisedHold = q.hold then forceRelease k v
  else if (q.release : Int) ≤ k.delta v then ({ k with hold := k.raisedHold }, none)
  else if q.debounce = 1 then confirmRelease k v
  else ({ k with state := .lifting, confirm := 1, hold := k.raisedHold }, none)

/-- A good reading in LIFTING (R112). -/
def goodLifting (q : Params) (k : KeyFields) (v : Nat) : KeyFields × Option KeyEvent :=
  if q.hold ≠ 0 ∧ k.raisedHold = q.hold then forceRelease k v
  else if (q.release : Int) ≤ k.delta v then ({ k with state := .held, confirm := 0, hold := k.raisedHold }, none)
  else if k.confirm + 1 = q.debounce then confirmRelease k v
  else ({ k with confirm := k.confirm + 1, hold := k.raisedHold }, none)

/-- A good reading (R103–R113, R115). -/
def goodReading (q : Params) (k : KeyFields) (v : Nat) : KeyFields × Option KeyEvent :=
  let k := { k with badRun := 0 }
  match k.state with
  | .uncal => goodUncal k v
  | .idle => goodIdle q k v
  | .arming => goodArming q k v
  | .held => goodHeld q k v
  | .lifting => goodLifting q k v
  | .fault => (k, none)

/-! ## Bad readings -/

/-- The key was HELD or LIFTING (R114). -/
def KeyState.pressed : KeyState → Bool
  | .held => true
  | .lifting => true
  | _ => false

/-- A bad reading (R103, R106, R114, R115). The confirm, drift and hold counts of a slot in UNCAL are 0 (R101). -/
def badReading (k : KeyFields) (v : Nat) : KeyFields × Option KeyEvent :=
  if k.state = .fault then ({ k with badRun := min Config.badRunLimit (k.badRun + 1) }, none)
  else if k.badRun + 1 < Config.badRunLimit then ({ k with badRun := k.badRun + 1 }, none)
  else
    ({ k with state := .fault, badRun := Config.badRunLimit, confirm := 0, drift := 0, hold := 0, calSum := 0,
              calCount := 0 },
     some (faultEvent v k.state.pressed))

/-- A reading taken by the key machine of a slot with parameters `q`: the key fields after it and the key event it
causes, at most one (R102, "Key state by reading"). -/
def takeReading (q : Params) (k : KeyFields) (rd : Reading) : KeyFields × Option KeyEvent :=
  if rd.bad then badReading k rd.value else goodReading q k rd.value

/-! ## Commands that reach the key fields -/

/-- The RELEASE with FORCED that RECALIBRATE and a measurement MODIFY post for a pressed key: the baseline minus the
last reading (R14, R117). A pressed key has a baseline and a last reading (R101, R117; log 7). -/
def SlotRecord.forcedRelease (r : SlotRecord) (k : SlotNo) : Option Event :=
  if r.key.state.pressed then
    some (keyEvent k .release (r.key.delta ((r.last.map (·.reading.value)).getD 0)) true false)
  else none

/-- The key fields after a detection-only MODIFY from `old` to `new` (R15). -/
def detectionAdjust (old new : Params) (k : KeyFields) : KeyFields :=
  let k := match k.state with
    | .arming => { k with state := .idle, confirm := 0 }
    | .lifting => { k with state := .held, confirm := 0 }
    | _ => k
  let k := if old.drift = new.drift then k else { k with drift := 0 }
  if new.hold ≠ 0 ∧ new.hold ≤ k.hold then { k with hold := new.hold - 1 } else k

end Sys2Proof.Machine
end

