-- ==== Sys2Proof/Machine/SweepQueue.lean ====
section
/-! DEFINITION. The sweep queue: ids, shares, admission and departures (R25–R29, R33, R36, R40–R43), and the removal
cascade that strips a lost slot from lists and requests (R20, R21). -/

namespace Sys2Proof.Machine

/-- A request is engaged while its engaged-slot set is not empty (R25). -/
def SweepRequest.isEngaged (r : SweepRequest) : Bool := !r.engaged.isEmpty

/-- The engaged list of the round record (R48): the engaged requests in queue order, each with its slots. -/
def State.engagedList (s : State) : List (Nat × List SlotNo) :=
  (s.queue.filter (·.isEngaged)).map fun r => (r.id, r.engaged)

/-- The requests of port `p` in the queue, in any state (R27). -/
def State.requestsOf (s : State) (p : Port) : List SweepRequest := s.queue.filter (fun r => decide (r.port = p))

/-- The sweep id after another: 255 is followed by 1 (R29). -/
def nextSweepId (n : Nat) : Nat := if n < 255 then n + 1 else 1

/-- The id `i` steps after `n` (R29). -/
def sweepIdAfter (n : Nat) : Nat → Nat
  | 0 => n
  | i + 1 => nextSweepId (sweepIdAfter n i)

/-- The first id, from the counter upward, that no queued request holds (R29). -/
def State.freeSweepId (s : State) : Nat :=
  (((List.range 255).map (sweepIdAfter s.nextId)).find? (fun i => !(s.queue.map (·.id)).contains i)).getD s.nextId

/-- A request as admission makes it (R25). -/
def newRequest (id : Nat) (p : Port) (session : Nat) (origin : Origin) (ks : List SlotNo) : SweepRequest :=
  { id := id, port := p, session := session, origin := origin, remaining := ks, measured := 0, skipped := 0,
    aborts := 0, engaged := [], cancelling := false, stale := false }

/-- The admission of a request at the tail of the queue, with the id of R29 (R33, R36). -/
def State.addRequest (s : State) (p : Port) (origin : Origin) (ks : List SlotNo) : State :=
  { s with
    queue := s.queue ++ [newRequest s.freeSweepId p (s.session p).number origin ks]
    nextId := nextSweepId s.freeSweepId }

/-! ## Departures -/

/-- What a walk over the queue makes of one request: it stays, perhaps changed, or leaves with the events to post. -/
inductive Fate where
  | stays (r : SweepRequest)
  | leaves (es : List (Port × Event))

def Fate.kept : Fate → Option SweepRequest
  | .stays r => some r
  | .leaves _ => none

def Fate.events : Fate → List (Port × Event)
  | .stays _ => []
  | .leaves es => es

/-- The queue walked in queue order: the requests that stay keep their order, and the events of those that leave are
posted in queue order (R20, R40, R58, R61). -/
def State.walkQueue (s : State) (fate : SweepRequest → Fate) : State :=
  { s with queue := s.queue.filterMap fun r => (fate r).kept }.postAll (s.queue.flatMap fun r => (fate r).events)

/-! ## The removal cascade -/

/-- Step 2 of the cascade at one request: the slot leaves the list of a losing port's request, which completes if that
empties it (R20, R41). A stale request of a losing port is stripped like any other, by R20 and R28 and against R172
(DESIGN CHOICE, log 16). -/
def cascadeFate (k : SlotNo) (losing : Port → Bool) (r : SweepRequest) : Fate :=
  if losing r.port && r.remaining.contains k then
    let r' := { r with remaining := r.remaining.filter (fun x => decide (x ≠ k)), skipped := r.skipped + 1 }
    if r'.remaining.isEmpty then .leaves (r'.report (doneEvent r')) else .stays r'
  else .stays r

/-- Step 1 of the cascade: the slot leaves port `p`'s standing list (R20). -/
def State.stripStanding (s : State) (k : SlotNo) (p : Port) : State :=
  s.setStanding p ((s.standing p).filter fun x => decide (x ≠ k))

/-- The removal cascade for slot `k`, whose record was `r`, and the losing ports (R20, R21). -/
def State.cascade (s : State) (k : SlotNo) (r : SlotRecord) (losing : Port → Bool) : State :=
  let s := if losing .a then s.stripStanding k .a else s
  let s := if losing .b then s.stripStanding k .b else s
  let s := s.walkQueue (cascadeFate k losing)
  let loser := r.owner.other
  if losing loser && r.subs.get loser then s.post loser (slotGoneEvent k) else s

end Sys2Proof.Machine
end

