-- ==== Sys2Proof/Machine/Arbiter.lean ====
section
/-! DEFINITION. Rounds and the lane arbiter: the round-start check and round start (R49–R54), round completion
(R57–R59) and round abort (R60–R62). -/

namespace Sys2Proof.Machine

/-! ## Round start -/

/-- Port `p` has a queued request. -/
def State.hasRequest (s : State) (p : Port) : Bool := s.queue.any fun r => decide (r.port = p)

/-- The leader port of a new round (R50). -/
def State.nextLeader (s : State) : Port :=
  match s.lastLeader with
  | none => if s.hasRequest .a then .a else .b
  | some p => if s.hasRequest p.other then p.other else p

/-- The order of examination: the leader's oldest request, then every other in queue order (R51). -/
def State.examination (s : State) (leader : Port) : List SweepRequest :=
  (s.queue.find? fun r => decide (r.port = leader)).toList ++ s.queue.eraseP fun r => decide (r.port = leader)

/-- The lane of a slot as its record stands (R51). -/
def State.laneOf (s : State) (k : SlotNo) : Option LaneNo := (s.slot k).map (·.params.lane)

/-- The slot that lane `l` is given: the first on that lane in the examined requests' remaining lists (R51). -/
def State.laneChoice (s : State) (leader : Port) (l : LaneNo) : Option SlotNo :=
  ((s.examination leader).flatMap (·.remaining)).find? fun k => decide (s.laneOf k = some l)

/-- The lane table of a new round (R51). -/
def State.laneTable (s : State) (leader : Port) : Vector (Option SlotNo) Config.laneCount :=
  Vector.ofFn fun l => s.laneChoice leader l

/-- The slot stands in the lane table (R53). -/
def Round.holds (r : Round) (k : SlotNo) : Bool := r.lanes.toList.contains (some k)

/-- Coalescing: a request is engaged on the slots of its list that are in the lane table (R52). -/
def SweepRequest.engage (r : SweepRequest) (round : Round) : SweepRequest :=
  { r with engaged := r.remaining.filter round.holds }

/-- The in-flight marks of the slots in the lane table set to `b` (R53, R59, R62). -/
def State.markInFlight (s : State) (round : Round) (b : Bool) : State :=
  { s with slots := Vector.ofFn fun k =>
      if round.holds k then (s.slot k).map fun r => { r with inFlight := b } else s.slot k }

/-- A lane that begins the conversion of slot `k`: its working values copied, in DISCHARGE (R70). -/
def startConversion (k : SlotNo) (q : Params) (pf : Profile) : Lane :=
  { state := .discharge, slot := some k, pads := q.pads, charge := some pf.charge, transfer := some pf.transfer,
    limit := some q.limit, counter := 0, reading := none, elapsed := 0 }

/-- Lane `l` at the start of a round: engaged lanes begin their conversion, the others keep their state (R54, R70). -/
def State.startedLane (s : State) (round : Round) (l : LaneNo) : Lane :=
  match round.lanes[l] with
  | none => s.lane l
  | some k =>
    match s.slot k with
    | none => s.lane l
    | some r => startConversion k r.params s.profiles[r.params.profile]

/-- The round a start forms from the queue as it stands (R50, R51). -/
def State.newRound (s : State) : Round := { lanes := s.laneTable s.nextLeader, leader := s.nextLeader }

/-- Round start, one action of the arbiter (R54). -/
def State.roundStart (s : State) : State :=
  let round := s.newRound
  { s with
    queue := s.queue.map fun r : SweepRequest => r.engage round
    lanes := Vector.ofFn fun l => s.startedLane round l
    round := some round
    lastLeader := some round.leader }.markInFlight round true

/-- The round-start condition (R49). -/
def State.roundMayStart (s : State) : Bool :=
  s.round.isNone && !s.queue.isEmpty && decide (s.gate.observed = .opened)

/-- The round-start check (R49). -/
def State.roundStartCheck (s : State) : State := if s.roundMayStart then s.roundStart else s

/-! ## Round completion -/

/-- A reading handed on for slot `k` (R57): last reading, key machine, then the READING event of a streaming slot and
the key event, to the subscriber set as it stands. -/
def State.handReading (s : State) (k : SlotNo) (rd : Reading) : State :=
  match s.slot k with
  | none => s
  | some r =>
    let (key, ev) := takeReading r.params r.key rd
    let s := s.setSlot k (some { r with last := some { reading := rd, tick := s.tick }, key := key })
    let s := if r.params.stream then s.postSubs r.subs (readingEvent k rd key.baseline) else s
    match ev with
    | none => s
    | some e => s.postSubs r.subs (keyEvent k e.kind e.value e.forced e.washeld)

/-- Phase 1 of completion at one lane (R57). -/
def State.handLane (round : Round) (s : State) (l : LaneNo) : State :=
  match round.lanes[l], (s.lane l).reading with
  | some k, some rd => s.handReading k rd
  | _, _ => s

/-- A request credited with its engaged slots (R58). -/
def SweepRequest.credited (r : SweepRequest) : SweepRequest :=
  let rest := r.remaining.filter fun k => !r.engaged.contains k
  { r with remaining := rest, measured := r.measured + (r.remaining.length - rest.length), engaged := [] }

/-- Phase 2 of completion at one request (R58). -/
def creditFate (r : SweepRequest) : Fate :=
  if r.isEngaged then
    let r' := r.credited
    if r'.cancelling then .leaves (r'.report (cancelledEvent r'))
    else if r'.remaining.isEmpty then .leaves (r'.report (doneEvent r'))
    else .stays r'
  else .stays r

/-- The end of a round: in-flight marks cleared, the round record none, the engaged lanes IDLE (R59, R62). -/
def State.clearRound (s : State) (round : Round) : State :=
  { s with
    round := none
    lanes := Vector.ofFn fun l => if (round.lanes[l]).isSome then Lane.idle else s.lane l }.markInFlight round false

/-- Round completion, one action (R57, R58, R59). -/
def State.completeRound (s : State) (round : Round) : State :=
  (((allLanes.foldl (State.handLane round) s).walkQueue creditFate).clearRound round).roundStartCheck

/-- Every engaged lane has ended (R56). -/
def State.allEnded (s : State) (round : Round) : Bool :=
  allLanes.all fun l => (round.lanes[l]).isNone || decide ((s.lane l).state = .ended)

/-! ## Round abort -/

/-- Round abort at one request (R61), with the abort limit in force. -/
def abortFate (limit : Nat) (r : SweepRequest) : Fate :=
  if r.isEngaged then
    let r' := { r with aborts := r.aborts + 1, engaged := [] }
    if r'.cancelling then .leaves (r'.report (cancelledEvent r'))
    else if limit ≤ r'.aborts then .leaves (r'.report (abortedEvent r'))
    else .stays r'
  else .stays r

/-- Every lane in IDLE (R62). -/
def State.idleLanes (s : State) : State := { s with lanes := Vector.replicate _ Lane.idle }

/-- Round abort, one action (R60, R61, R62, R78): no reading is handed on, and every lane returns to IDLE. -/
def State.abortRound (s : State) (round : Round) : State :=
  ((s.walkQueue (abortFate s.gate.settings.abortLimit)).clearRound round).idleLanes.roundStartCheck

end Sys2Proof.Machine
end

