-- ==== Sys2Proof/Machine/Lanes.lean ====
section
/-! DEFINITION. The conversion lanes: their pins (R69), the timed steps of a conversion (R71–R75) and the meanings of
the four lane events. A lane event at a lane that is not in the phase it ends cannot arise (R68, R72) and changes
nothing (log 3). -/

namespace Sys2Proof.Machine

/-! ## Pins -/

/-- How a lane drives a pin (R69); `joined`: the reservoir and the pads of the set are connected. -/
inductive PinDrive where
  | grounded
  | floating
  | high
  | joined
deriving DecidableEq, Repr

/-- The reservoir pin of a lane (R69). -/
def Lane.reservoirPin (x : Lane) : PinDrive :=
  match x.state with
  | .pulsing .charge => .floating
  | .pulsing .gapAfterCharge => .floating
  | .pulsing .transfer => .joined
  | .pulsing (.gapAfterTransfer _) => .floating
  | _ => .grounded

/-- A pad pin of a lane, by its position: a pad outside the pad set in use is a shield pad, always grounded (R69). -/
def Lane.padPin (x : Lane) (pad : Fin Config.padsPerLane) : PinDrive :=
  if x.pads.getLsbD pad.val then
    match x.state with
    | .pulsing .charge => .high
    | .pulsing .gapAfterCharge => .floating
    | .pulsing .transfer => .joined
    | .pulsing (.gapAfterTransfer _) => .floating
    | _ => .grounded
  else .grounded

/-! ## The steps of a conversion -/

/-- The pulse period in core clocks (R72). -/
def Lane.pulsePeriod (x : Lane) : Nat := x.charge.getD 0 + x.transfer.getD 0 + 2 * Config.gapClocks

/-- The length in core clocks of the phase the lane is in (R71, R72); 0 where no phase runs. -/
def Lane.phaseClocks (x : Lane) : Nat :=
  match x.state with
  | .idle => 0
  | .discharge => Config.dischargeClocks
  | .pulsing .charge => x.charge.getD 0
  | .pulsing .gapAfterCharge => Config.gapClocks
  | .pulsing .transfer => x.transfer.getD 0
  | .pulsing (.gapAfterTransfer _) => Config.gapClocks
  | .ended => 0

/-- The lane's present phase has run its length and the lane is in state `st`. -/
def Lane.enter (x : Lane) (st : LaneState) : Lane := { x with state := st, elapsed := x.elapsed + x.phaseClocks }

/-- The lane stores its reading and enters ENDED (R74, R75). -/
def Lane.endWith (x : Lane) (rd : Reading) : Lane := { x.enter .ended with reading := some rd }

/-- The reading of a crossing: the pulse counter (R74, R76). -/
def crossingReading (n : Nat) : Reading := { value := n, sat := false, low := decide (n < Config.lowFloor) }

/-- The reading at the transfer limit (R75, R76). -/
def limitReading (n : Nat) : Reading := { value := n, sat := true, low := decide (n < Config.lowFloor) }

/-- The end of DISCHARGE: the first charge phase begins (R71). -/
def Lane.afterDischarge (x : Lane) : Lane :=
  match x.state with
  | .discharge => x.enter (.pulsing .charge)
  | _ => x

/-- The end of a charge phase or of the gap after it (R72). -/
def Lane.afterPhase (x : Lane) : Lane :=
  match x.state with
  | .pulsing .charge => x.enter (.pulsing .gapAfterCharge)
  | .pulsing .gapAfterCharge => x.enter (.pulsing .transfer)
  | _ => x

/-- The end of a transfer phase: the counter rises by one and the comparison is made (R73). -/
def Lane.afterTransfer (x : Lane) (crossed : Bool) : Lane :=
  match x.state with
  | .pulsing .transfer => { x.enter (.pulsing (.gapAfterTransfer crossed)) with counter := x.counter + 1 }
  | _ => x

/-- The end of the trailing gap: the lane acts on its comparison (R73, R74, R75). -/
def Lane.afterPulse (x : Lane) : Lane :=
  match x.state with
  | .pulsing (.gapAfterTransfer crossed) =>
    if crossed then x.endWith (crossingReading x.counter)
    else if x.limit = some x.counter then x.endWith (limitReading x.counter)
    else x.enter (.pulsing .charge)
  | _ => x

/-- Round completion, if every engaged lane of a running round has ended (R56). -/
def State.completionCheck (s : State) : State :=
  match s.round with
  | none => s
  | some round => if s.allEnded round then s.completeRound round else s

/-- The end of a pulse at lane `l`; where it ends the conversion, the arbiter notes the lane's end (R56, R73). -/
def State.lanePulseEnd (s : State) (l : LaneNo) : State :=
  let s' := s.setLane l (s.lane l).afterPulse
  if (s.lane l).state ≠ .ended ∧ (s.lane l).afterPulse.state = .ended then s'.completionCheck else s'

/-! ## The meanings -/

/-- DISCHARGE_END (R71). -/
def execDischargeEnd (l : LaneNo) (s : State) : Host.Outcome State Fault Refusal :=
  s.whileRunning fun s => s.setLane l (s.lane l).afterDischarge

/-- PULSE_PHASE_END (R72). -/
def execPulsePhaseEnd (l : LaneNo) (s : State) : Host.Outcome State Fault Refusal :=
  s.whileRunning fun s => s.setLane l (s.lane l).afterPhase

/-- TRANSFER_PHASE_END (R73). -/
def execTransferPhaseEnd (l : LaneNo) (crossed : Bool) (s : State) : Host.Outcome State Fault Refusal :=
  s.whileRunning fun s => s.setLane l ((s.lane l).afterTransfer crossed)

/-- PULSE_END (R73–R75, and round completion at the end of the last engaged lane, R56–R59). -/
def execPulseEnd (l : LaneNo) (s : State) : Host.Outcome State Fault Refusal :=
  s.whileRunning fun s => s.lanePulseEnd l

end Sys2Proof.Machine
end

