-- ==== Sys2Proof/Machine/QuietGate.lean ====
section
/-! DEFINITION. The quiet gate: the observed state (R91), a change of QUIET (R92) and SET_GATE (R89, R90, R93). -/

namespace Sys2Proof.Machine

/-- The observed state that a gate's settings and line level give (R91). -/
def observedState (settings : GateSettings) (line : Level) : GateState :=
  if settings.enabled && decide (line ≠ settings.openLevel) then .shut else .opened

/-- The gate forms its observed state anew and tells the arbiter of a change: OPEN to SHUT aborts a running round
(R96), SHUT to OPEN brings the round-start check (R95). -/
def State.formObserved (s : State) : State :=
  let new := observedState s.gate.settings s.gate.line
  let s' := { s with gate := { s.gate with observed := new } }
  match s.gate.observed, new with
  | .opened, .shut =>
    match s'.round with
    | some round => s'.abortRound round
    | none => s'
  | .shut, .opened => s'.roundStartCheck
  | _, _ => s'

/-- A change of level on QUIET (R86, R92). A level the line stands at already is no change. -/
def State.quietChange (s : State) (level : Level) : State :=
  { s with gate := { s.gate with line := level } }.formObserved

/-- The effect of an accepted SET_GATE (R90, R93). -/
def State.applyGate (s : State) (p : Port) (g : GateSettings) : State :=
  { s with gate := { s.gate with settings := g, holder := if g.enabled then some p else none } }.formObserved.roundStartCheck

/-- The checks and the effect of SET_GATE (R89, R90, R206). -/
def setGateAction (p : Port) (s : State) (f : Frame) : Answer :=
  match gateArg f.payload with
  | none => .refuse .badArg
  | some g =>
    if s.gate.holder = some p.other then .refuse .denied
    else
      let s' := s.applyGate p g
      .accept s' [gateStateByte s'.gate.observed, portByte s'.gate.holder]

/-- QUIET_LEVEL_CHANGE (R92). -/
def execQuietLevelChange (level : Level) (s : State) : Host.Outcome State Fault Refusal :=
  s.whileRunning fun s => s.quietChange level

/-- SET_GATE (R90). -/
def execSetGate (p : Port) (s : State) : Host.Outcome State Fault Refusal :=
  runCommand (hasCode codeSetGate) true (setGateAction p) p s

end Sys2Proof.Machine
end

