-- ==== Sys2Proof/Machine/Slots.lean ====
section
/-! DEFINITION. The slot commands: DEFINE, MODIFY, DELETE, SUBSCRIBE, UNSUBSCRIBE, READ_SLOT and RECALIBRATE
(R9–R24, R117), and SET_PROFILE (R82). -/

namespace Sys2Proof.Machine

/-- A subscriber set of one port (R6). -/
def onlySub (p : Port) : PerPort Bool := PerPort.set { a := false, b := false } p true

/-- The record of a slot as DEFINE makes it (R11). -/
def newRecord (owner : Port) (q : Params) : SlotRecord :=
  { owner := owner, params := q, subs := onlySub owner, key := KeyFields.initial, last := none, inFlight := false }

/-- The lowest-numbered FREE record (R10). -/
def State.lowestFree (s : State) : Option SlotNo := (List.finRange Config.slotCount).find? fun k => (s.slot k).isNone

/-- The checks and the effect of DEFINE (R9–R11, R198). -/
def defineAction (p : Port) (s : State) (f : Frame) : Answer :=
  match defineArg f.payload with
  | none => .refuse .badArg
  | some (.named k, q) =>
    if (s.slot k).isSome then .refuse .notFree
    else .accept (s.setSlot k (some (newRecord p q))) [byteOf k.val]
  | some (.any, q) =>
    match s.lowestFree with
    | none => .refuse .noFree
    | some k => .accept (s.setSlot k (some (newRecord p q))) [byteOf k.val]

/-! ## MODIFY -/

/-- The three classes of MODIFY (R13). -/
inductive ModifyClass where
  | noChange
  | detection
  | measurement
deriving DecidableEq, Repr

/-- The class byte of the MODIFY response (R198). -/
def classByte : ModifyClass → Byte
  | .noChange => 0
  | .detection => 1
  | .measurement => 2

/-- The class of a MODIFY from `old` to `new` (R13). -/
def classify (old new : Params) : ModifyClass :=
  if old = new then .noChange
  else if old.lane = new.lane ∧ old.pads = new.pads ∧ old.profile = new.profile ∧ old.limit = new.limit then .detection
  else .measurement

/-- What a MODIFY does to the record, the subscriber set apart (R13–R15). -/
def modifiedRecord (r : SlotRecord) (new : Params) : SlotRecord :=
  match classify r.params new with
  | .noChange => r
  | .detection => { r with params := new, key := detectionAdjust r.params new r.key }
  | .measurement => { r with params := new, key := KeyFields.initial, last := none }

/-- The forced RELEASE that a measurement MODIFY posts first, to the subscriber set as it stood (R14). -/
def State.postForcedRelease (s : State) (k : SlotNo) (r : SlotRecord) : State :=
  match r.forcedRelease k with
  | none => s
  | some e => s.postSubs r.subs e

/-- The last effect of a MODIFY that takes `shared` from yes to no: a subscribed non-owner loses the slot (R16). -/
def State.unshare (s : State) (k : SlotNo) (old : SlotRecord) (r : SlotRecord) : State :=
  if old.params.shared && !r.params.shared && old.subs.get old.owner.other then
    (s.setSlot k (some { r with subs := onlySub old.owner })).cascade k old (fun p => decide (p = old.owner.other))
  else s

/-- The effect of an accepted MODIFY of slot `k`, whose record is `r` (R13–R16). -/
def State.applyModify (s : State) (k : SlotNo) (r : SlotRecord) (new : Params) : State :=
  let s := if classify r.params new = .measurement then s.postForcedRelease k r else s
  (s.setSlot k (some (modifiedRecord r new))).unshare k r (modifiedRecord r new)

/-- The checks and the effect of MODIFY (R12–R16, R198). -/
def modifyAction (p : Port) (s : State) (f : Frame) : Answer :=
  match modifyArg f.payload with
  | none => .refuse .badArg
  | some (k, q) =>
    match s.slot k with
    | none => .refuse .notFound
    | some r =>
      if r.owner ≠ p then .refuse .denied
      else if r.inFlight then .refuse .inFlight
      else .accept (s.applyModify k r q) [classByte (classify r.params q)]

/-! ## The one-slot commands -/

/-- Checks 4 and 5 of a command that names one slot (R199, R200), and then its own checks and effect. -/
def withSlot (s : State) (f : Frame) (act : SlotNo → SlotRecord → Answer) : Answer :=
  match slotArg f.payload with
  | none => .refuse .badArg
  | some k =>
    match s.slot k with
    | none => .refuse .notFound
    | some r => act k r

/-- The checks and the effect of DELETE (R17). Both ports lose the slot, also where a teardown has taken the non-owner out
of its subscriber set; R172 would have the cascade run for the owner alone (DESIGN CHOICE, log 16). -/
def deleteAction (p : Port) (s : State) (f : Frame) : Answer :=
  withSlot s f fun k r =>
    if r.owner ≠ p then .refuse .denied
    else if r.inFlight then .refuse .inFlight
    else .accept ((s.cascade k r fun _ => true).setSlot k none) []

/-- The checks and the effect of SUBSCRIBE (R18). -/
def subscribeAction (p : Port) (s : State) (f : Frame) : Answer :=
  withSlot s f fun k r =>
    if r.subs.get p then .accept s []
    else if r.params.shared then .accept (s.setSlot k (some { r with subs := r.subs.set p true })) []
    else .refuse .denied

/-- The checks and the effect of UNSUBSCRIBE (R19). -/
def unsubscribeAction (p : Port) (s : State) (f : Frame) : Answer :=
  withSlot s f fun k r =>
    if r.owner = p then .refuse .denied
    else if !r.subs.get p then .accept s []
    else if r.inFlight then .refuse .inFlight
    else
      .accept ((s.setSlot k (some { r with subs := r.subs.set p false })).cascade k r fun x => decide (x = p)) []

/-- The checks and the answer of READ_SLOT (R23). -/
def readSlotAction (s : State) (f : Frame) : Answer :=
  withSlot s f fun k r => .accept s (snapshotBytes k r)

/-- The checks and the effect of RECALIBRATE (R117). -/
def recalibrateAction (p : Port) (s : State) (f : Frame) : Answer :=
  withSlot s f fun k r =>
    if r.subs.get p then
      .accept ((s.postForcedRelease k r).setSlot k (some { r with key := KeyFields.initial })) []
    else .refuse .denied

/-! ## SET_PROFILE -/

/-- A DEFINED slot of port `p` names the profile (R82). -/
def State.profileNamedBy (s : State) (p : Port) (i : ProfileNo) : Bool :=
  (List.finRange Config.slotCount).any fun k =>
    match s.slot k with
    | none => false
    | some r => decide (r.owner = p) && decide (r.params.profile = i)

/-- The checks and the effect of SET_PROFILE (R82, R201). -/
def setProfileAction (p : Port) (s : State) (f : Frame) : Answer :=
  match setProfileArg f.payload with
  | none => .refuse .badArg
  | some (i, pf) =>
    if s.profileNamedBy p.other i then .refuse .denied
    else .accept { s with profiles := s.profiles.set i.val pf i.isLt } []

/-! ## The meanings -/

/-- DEFINE (R9–R11). -/
def execDefine (p : Port) (s : State) : Host.Outcome State Fault Refusal :=
  runCommand (hasCode codeDefine) true (defineAction p) p s

/-- MODIFY (R12–R16). -/
def execModify (p : Port) (s : State) : Host.Outcome State Fault Refusal :=
  runCommand (hasCode codeModify) true (modifyAction p) p s

/-- DELETE (R17). -/
def execDelete (p : Port) (s : State) : Host.Outcome State Fault Refusal :=
  runCommand (hasCode codeDelete) true (deleteAction p) p s

/-- SUBSCRIBE (R18). -/
def execSubscribe (p : Port) (s : State) : Host.Outcome State Fault Refusal :=
  runCommand (hasCode codeSubscribe) true (subscribeAction p) p s

/-- UNSUBSCRIBE (R19). -/
def execUnsubscribe (p : Port) (s : State) : Host.Outcome State Fault Refusal :=
  runCommand (hasCode codeUnsubscribe) true (unsubscribeAction p) p s

/-- READ_SLOT (R23). -/
def execReadSlot (p : Port) (s : State) : Host.Outcome State Fault Refusal :=
  runCommand (hasCode codeReadSlot) true readSlotAction p s

/-- RECALIBRATE (R117). -/
def execRecalibrate (p : Port) (s : State) : Host.Outcome State Fault Refusal :=
  runCommand (hasCode codeRecalibrate) true (recalibrateAction p) p s

/-- SET_PROFILE (R82). -/
def execSetProfile (p : Port) (s : State) : Host.Outcome State Fault Refusal :=
  runCommand (hasCode codeSetProfile) true (setProfileAction p) p s

end Sys2Proof.Machine
end

