-- ==== Sys2Proof/Machine/Sweeps.lean ====
section
/-! DEFINITION. The sweep commands: SET_STANDING (R31), SWEEP (R32, R33) and CANCEL (R39). -/

namespace Sys2Proof.Machine

/-- Every slot of a list is DEFINED (check 5, R191). -/
def State.allDefined (s : State) (ks : List SlotNo) : Bool := ks.all fun k => (s.slot k).isSome

/-- Slot `k` is DEFINED and port `p` is in its subscriber set (R6). -/
def State.subscribes (s : State) (p : Port) (k : SlotNo) : Bool :=
  match s.slot k with
  | none => false
  | some r => r.subs.get p

/-- Port `p` subscribes to every slot of a list (check 6, R191). -/
def State.allSubscribed (s : State) (p : Port) (ks : List SlotNo) : Bool := ks.all fun k => s.subscribes p k

/-- The checks and the effect of SET_STANDING (R31, R202). -/
def setStandingAction (p : Port) (s : State) (f : Frame) : Answer :=
  match slotListArg f.payload with
  | none => .refuse .badArg
  | some ks =>
    if !s.allDefined ks then .refuse .notFound
    else if !s.allSubscribed p ks then .refuse .denied
    else .accept (s.setStanding p ks) []

/-- The list a SWEEP stands for (R32). -/
def State.sweepList (s : State) (p : Port) : SweepChoice → List SlotNo
  | .standing => s.standing p
  | .explicit ks => ks

/-- The checks and the effect of SWEEP (R32, R33, R203). -/
def sweepAction (p : Port) (s : State) (f : Frame) : Answer :=
  match sweepArg f.payload with
  | none => .refuse .badArg
  | some c =>
    let ks := s.sweepList p c
    if ks.isEmpty then .refuse .badArg
    else if !s.allDefined ks then .refuse .notFound
    else if !s.allSubscribed p ks then .refuse .denied
    else if Config.requestsPerPort ≤ (s.requestsOf p).length then .refuse .qFull
    else .accept (s.addRequest p .command ks).roundStartCheck [byteOf s.freeSweepId]

/-- The effect of a CANCEL on the request with id `id`: marked where it is engaged, removed with SWEEP_CANCELLED where
it waits (R39, R42, R43). -/
def cancelFate (id : Nat) (r : SweepRequest) : Fate :=
  if r.id = id then
    if r.isEngaged then .stays { r with cancelling := true } else .leaves (r.report (cancelledEvent r))
  else .stays r

/-- The checks and the effect of CANCEL (R39, R204). -/
def cancelAction (p : Port) (s : State) (f : Frame) : Answer :=
  match cancelArg f.payload with
  | none => .refuse .badArg
  | some id =>
    match s.queue.find? (fun r => decide (r.id = id)) with
    | none => .refuse .notFound
    | some r => if r.port ≠ p then .refuse .denied else .accept (s.walkQueue (cancelFate id)) []

/-- SET_STANDING (R31). -/
def execSetStanding (p : Port) (s : State) : Host.Outcome State Fault Refusal :=
  runCommand (hasCode codeSetStanding) true (setStandingAction p) p s

/-- SWEEP (R33). -/
def execSweep (p : Port) (s : State) : Host.Outcome State Fault Refusal :=
  runCommand (hasCode codeSweep) true (sweepAction p) p s

/-- CANCEL (R39). -/
def execCancel (p : Port) (s : State) : Host.Outcome State Fault Refusal :=
  runCommand (hasCode codeCancel) true (cancelAction p) p s

end Sys2Proof.Machine
end

