-- ==== Sys2Proof/Machine/CadenceTimers.lean ====
section
/-! DEFINITION. The time base (R124), the cadence timers (R127–R129, R35–R37) and SET_CADENCE (R130–R134). -/

namespace Sys2Proof.Machine

/-! ## Ticks -/

/-- A running timer that a tick reaches takes the ticks before it as far as its counter stays above 0; the tick that
finds the counter at 1 is left owed, for its CADENCE_EXPIRY (R124, R128, log 4). A STOPPED timer takes no action. -/
def Cadence.reachedByTick (c : Cadence) : Cadence :=
  if c.running then
    { c with counter := c.counter - min (c.owed + 1) (c.counter - 1)
             owed := c.owed + 1 - min (c.owed + 1) (c.counter - 1) }
  else c

/-- One advance of the time base (R124). -/
def State.timeBaseTick (s : State) : State :=
  let s := { s with tick := s.tick + 1 }
  let s := s.setCadence .a (s.cadence .a).reachedByTick
  s.setCadence .b (s.cadence .b).reachedByTick

/-! ## Expiries -/

/-- An expiry of port `p`'s timer at the sweep queue: the four cases of R35. -/
def State.expiryAtQueue (s : State) (p : Port) : State :=
  if (s.standing p).isEmpty then s
  else
    match (s.requestsOf p).find? (fun r => decide (r.origin = .timer)) with
    | some r => s.post p (sweepEvent .cadenceSlip r.id (s.requestsOf p).length none)
    | none =>
      if Config.requestsPerPort ≤ (s.requestsOf p).length then
        s.post p (sweepEvent .cadenceSlip 0 (s.requestsOf p).length none)
      else (s.addRequest p .timer (s.standing p)).roundStartCheck

/-- Port `p`'s running timer takes a tick that stands before it: a counter above 1 falls by one (a LOAD has come
first, R136); a counter at 1 is reloaded from the latch and the expiry is handed to the sweep queue (R128, R129). -/
def State.takeTick (s : State) (p : Port) : State :=
  let c := s.cadence p
  if c.running && decide (0 < c.owed) then
    if 1 < c.counter then s.setCadence p { c with counter := c.counter - 1, owed := c.owed - 1 }
    else (s.setCadence p { c with counter := c.latch, owed := c.owed - 1 }).expiryAtQueue p
  else s

/-! ## SET_CADENCE -/

/-- LOAD n (R131). -/
def Cadence.load (c : Cadence) (n : Nat) : Cadence := { c with running := true, counter := n, latch := n }

/-- STAGE n (R132). -/
def Cadence.stage (c : Cadence) (n : Nat) : Cadence := { c with latch := n }

/-- STOP (R133): a tick that the timer has not taken comes after the STOP, and the stopped timer takes no action on it
(R136). -/
def Cadence.stop (c : Cadence) : Cadence := { c with running := false, owed := 0 }

/-- RESUME (R134). -/
def Cadence.resume (c : Cadence) : Cadence :=
  if c.running then c else { c with running := true, counter := c.latch, owed := 0 }

/-- The payload of a SET_CADENCE response: state, counter, latch (R205). -/
def cadenceBytes (c : Cadence) : List Byte := [yesNoByte c.running] ++ numBytes c.counter ++ numBytes c.latch

/-- An accepted SET_CADENCE that leaves port `p`'s timer as `c` (R130). -/
def State.acceptCadence (s : State) (p : Port) (c : Cadence) : Answer := .accept (s.setCadence p c) (cadenceBytes c)

/-- The checks and the effect of SET_CADENCE with its action and payload (R130–R134, R205). -/
def setCadenceAction (p : Port) (s : State) (f : Frame) : Answer :=
  match f.cadenceAction with
  | none => .refuse .badArg
  | some .load =>
    match periodArg f.payload with
    | none => .refuse .badArg
    | some n => s.acceptCadence p ((s.cadence p).load n)
  | some .stage =>
    match periodArg f.payload with
    | none => .refuse .badArg
    | some n => s.acceptCadence p ((s.cadence p).stage n)
  | some .stop => if f.payload.length = 3 then s.acceptCadence p (s.cadence p).stop else .refuse .badArg
  | some .resume => if f.payload.length = 3 then s.acceptCadence p (s.cadence p).resume else .refuse .badArg

/-! ## The meanings -/

/-- TICK (R124). -/
def execTick (s : State) : Host.Outcome State Fault Refusal := s.whileRunning State.timeBaseTick

/-- CADENCE_EXPIRY (R128). Where no tick stands before a running timer there is no expiry, and nothing changes
(log 3). -/
def execCadenceExpiry (p : Port) (s : State) : Host.Outcome State Fault Refusal :=
  s.whileRunning fun s => s.takeTick p

/-- SET_CADENCE LOAD (R131). -/
def execLoad (p : Port) (s : State) : Host.Outcome State Fault Refusal :=
  runCommand (Frame.isCadence .load) true (setCadenceAction p) p s

/-- SET_CADENCE STAGE (R132). -/
def execStage (p : Port) (s : State) : Host.Outcome State Fault Refusal :=
  runCommand (Frame.isCadence .stage) true (setCadenceAction p) p s

/-- SET_CADENCE STOP (R133). -/
def execStop (p : Port) (s : State) : Host.Outcome State Fault Refusal :=
  runCommand (Frame.isCadence .stop) true (setCadenceAction p) p s

/-- SET_CADENCE RESUME (R134). -/
def execResume (p : Port) (s : State) : Host.Outcome State Fault Refusal :=
  runCommand (Frame.isCadence .resume) true (setCadenceAction p) p s

end Sys2Proof.Machine
end

