-- ==== Sys2Proof/Machine/EventQueues.lean ====
section
/-! DEFINITION. FETCH (R148, R149), ACK (R150, R151) and the attention lines (R152). -/

namespace Sys2Proof.Machine

/-- The records not yet delivered (R148). -/
def EventQueue.undelivered (q : EventQueue) : Nat := q.records.countP fun r => !r.delivered

/-- The attention line of port `p` is driven low exactly when its session is OPEN and its queue holds an undelivered
record (R152). -/
def State.attentionLow (s : State) (p : Port) : Bool :=
  (s.session p).isOpen && (s.events p).records.any fun r => !r.delivered

/-- The first `n` records marked delivered (R148). -/
def EventQueue.deliver (q : EventQueue) (n : Nat) : EventQueue :=
  { q with records := (q.records.take n).map (fun r => { r with delivered := true }) ++ q.records.drop n }

/-- The checks and the effect of FETCH (R148, R149, R207). -/
def fetchAction (p : Port) (s : State) (f : Frame) : Answer :=
  match fetchArg f.payload with
  | none => .refuse .badArg
  | some n =>
    let q := (s.events p).deliver n
    let got := q.records.take n
    .accept (s.setEvents p q)
      ([byteOf got.length, byteOf q.records.length, byteOf q.undelivered] ++ got.flatMap recordBytes)

/-- The place of the delivered record with sequence number `seq`, from the head (R150). -/
def EventQueue.ackPlace (q : EventQueue) (seq : Word) : Option Nat :=
  q.records.findIdx? fun r => decide (r.seq = seq) && r.delivered

/-- The checks and the effect of ACK (R150, R151, R208). -/
def ackAction (p : Port) (s : State) (f : Frame) : Answer :=
  match ackArg f.payload with
  | none => .refuse .badArg
  | some seq =>
    match (s.events p).ackPlace seq with
    | none => .refuse .badSeq
    | some i =>
      let rest := (s.events p).records.drop (i + 1)
      .accept (s.setEvents p { s.events p with records := rest }) [byteOf (i + 1), byteOf rest.length]

/-- FETCH (R148). -/
def execFetch (p : Port) (s : State) : Host.Outcome State Fault Refusal :=
  runCommand (hasCode codeFetch) true (fetchAction p) p s

/-- ACK (R150). -/
def execAck (p : Port) (s : State) : Host.Outcome State Fault Refusal :=
  runCommand (hasCode codeAck) true (ackAction p) p s

end Sys2Proof.Machine
end

