-- ==== Sys2Proof/Machine/Sessions.lean ====
section
/-! DEFINITION. Sessions: teardown (R165–R168), OPEN (R161, R162, R192) and CLOSE (R164). -/

namespace Sys2Proof.Machine

/-! ## Teardown -/

/-- Step 1 at one request: a waiting request of `p` leaves with no event, an engaged one is marked cancelling and
stale (R44, R166). -/
def teardownFate (p : Port) (r : SweepRequest) : Fate :=
  if r.port = p then
    if r.isEngaged then .stays { r with cancelling := true, stale := true } else .leaves []
  else .stays r

/-- Step 2: the standing list emptied and the timer stopped (R135, R166). -/
def State.idleLists (s : State) (p : Port) : State :=
  (s.setStanding p []).setCadence p (s.cadence p).stop

/-- Step 3: `p` leaves the subscriber set of every slot the other port owns (R167). -/
def State.dropSubscriptions (s : State) (p : Port) : State :=
  { s with slots := Vector.ofFn fun k =>
      (s.slot k).map fun r => if r.owner = p then r else { r with subs := r.subs.set p false } }

/-- Step 4: the event queue emptied, its next sequence number 0 (R155, R168). -/
def State.emptyEvents (s : State) (p : Port) : State := s.setEvents p { records := [], nextSeq := 0 }

/-- Step 5: the gate holder becomes none if it is `p` (R97, R168). -/
def State.releaseGate (s : State) (p : Port) : State :=
  if s.gate.holder = some p then { s with gate := { s.gate with holder := none } } else s

/-- Teardown of port `p`, its five steps in order (R165). -/
def State.teardown (s : State) (p : Port) : State :=
  ((((s.walkQueue (teardownFate p)).idleLists p).dropSubscriptions p).emptyEvents p).releaseGate p

/-! ## OPEN and CLOSE -/

/-- The session number after another: 255 is followed by 1 (R159, R161). -/
def nextSession (n : Nat) : Nat := if n < 255 then n + 1 else 1

/-- A new session on a port (R161). -/
def State.openNew (s : State) (p : Port) : State :=
  let n := nextSession (s.session p).counter
  s.setSession p { isOpen := true, number := n, counter := n }

/-- The effect of OPEN: on an open port a teardown comes first (R161, R162). -/
def State.applyOpen (s : State) (p : Port) : State :=
  if (s.session p).isOpen then (s.teardown p).openNew p else s.openNew p

/-- The payload of the OPEN response (R163, R192). -/
def openPayload : List Byte :=
  wordBytes Config.partCode ++
  [Config.revision, byteOf Config.slotCount, byteOf Config.laneCount, byteOf Config.padsPerLane,
   byteOf Config.profileCount, byteOf Config.requestsPerPort, byteOf Config.eventCapacity, byteOf Config.fetchMax,
   byteOf Config.commandPayloadMax, byteOf Config.responsePayloadMax]

/-- The effect of CLOSE on an open port (R164). -/
def State.applyClose (s : State) (p : Port) : State :=
  let s := s.teardown p
  s.setSession p { s.session p with isOpen := false, number := 0 }

/-- OPEN (R161). -/
def execOpen (p : Port) (s : State) : Host.Outcome State Fault Refusal :=
  runCommand (hasCode codeOpen) false (fun s _ => .accept (s.applyOpen p) openPayload) p s

/-- CLOSE (R164). -/
def execClose (p : Port) (s : State) : Host.Outcome State Fault Refusal :=
  runCommand (hasCode codeClose) true (fun s _ => .accept (s.applyClose p) []) p s

end Sys2Proof.Machine
end

