-- ==== Sys2Proof/Machine/HostPorts.lean ====
section
/-! DEFINITION. Host port transactions: the marker and the bytes sent (R175), the clock edges (R174), the end of a
transaction (R179, R180), the placement of a response (R181); the commands the port itself executes, STATUS (R195) and
RESEND (R185); and the answer to an unknown code (R182). -/

namespace Sys2Proof.Machine

/-! ## A transaction on the wire -/

/-- The marker chosen at the falling edge of xCS# (R175). -/
def HostPort.marker (h : HostPort) : Marker :=
  if h.executing then .busy else if h.buffer.isSome then .response else .none

/-- Byte `n` of what the port sends in a transaction with marker `m` (R175). -/
def HostPort.byteSent (h : HostPort) (m : Marker) (n : Nat) : Byte :=
  match m, h.buffer with
  | .busy, _ => if n = 0 then Config.markerBusy else Config.fill
  | .response, some r => (responseBytes r.response).getD n Config.fill
  | _, _ => if n = 0 then Config.markerNone else Config.fill

/-- Bit `n` of what the port sends, the most significant bit of each byte first (R174). -/
def HostPort.bitSent (h : HostPort) (m : Marker) (n : Nat) : Bool := (h.byteSent m (n / 8)).getMsbD (n % 8)

/-- The bits shifted in, and as many out, since xCS# fell (R174). -/
def Transaction.count (t : Transaction) : Nat := 8 * t.received.length + t.bits.length

/-- Eight bits, first bit most significant, as a byte (R174). -/
def byteOfBits (bs : List Bool) : Byte := bs.foldl (fun acc b => (acc <<< 1) ||| flagBit b 0) 0

/-- A data bit sampled on a rising edge; eight of them complete a received byte (R174). -/
def Transaction.sample (t : Transaction) (sdi : Bool) : Transaction :=
  if t.bits.length < 7 then { t with bits := t.bits ++ [sdi] }
  else { t with received := t.received ++ [byteOfBits (t.bits ++ [sdi])], bits := [] }

/-- xSDO driven while xCS# is low and no transaction runs, at a level that R174 leaves open (log 15). -/
def HostPort.driveOpen (p : Port) (h : HostPort) : HostPort :=
  { h with sdo := some (Config.openSdo (decide (p = .b)) h.draws), draws := h.draws + 1 }

/-- The falling edge of xCS#: the marker is chosen and the first bit driven onto xSDO (R174, R175). An xCS# that is low
already does not fall (log 3). -/
def HostPort.start (h : HostPort) : HostPort :=
  if h.csLow then h
  else
    { h with csLow := true
             transaction := some { marker := h.marker, received := [], bits := [] }
             sdo := some (h.bitSent h.marker 0) }

/-- An edge of xSCK: shifted in on a rising edge, xSDO changed after a falling edge (R174). With no transaction running
no bit is taken in, and xSDO, which a low xCS# keeps driven, may change after a falling edge (log 15). -/
def HostPort.clock (p : Port) (h : HostPort) (e : ClockEdge) : HostPort :=
  match h.transaction, e with
  | none, .rising _ => h
  | none, .falling => if h.csLow then h.driveOpen p else h
  | some t, .rising sdi => { h with transaction := some (t.sample sdi) }
  | some t, .falling => { h with sdo := some (h.bitSent t.marker t.count) }

/-- The response that the transaction has clocked out whole, if any (R179). -/
def HostPort.clockedOut (h : HostPort) (t : Transaction) : Option Outgoing :=
  match t.marker, h.buffer with
  | .response, some r => if (responseBytes r.response).length ≤ t.received.length then some r else none
  | _, _ => none

/-- R179: a response clocked out whole leaves the buffer and, unless it answers RESEND, becomes the last-response
copy. -/
def HostPort.settleResponse (h : HostPort) (t : Transaction) : HostPort :=
  match h.clockedOut t with
  | some r => { h with buffer := none, lastResponse := if r.ofResend then h.lastResponse else some r.response }
  | none => h

/-- Whether a frame of the transaction may be taken: the marker was not BUSY and a response was clocked out whole
(R180). -/
def HostPort.mayTake (h : HostPort) (t : Transaction) : Bool :=
  match t.marker with
  | .busy => false
  | .none => true
  | .response => (h.clockedOut t).isSome

/-- R180: a complete frame is taken where that is allowed; otherwise the received bytes are discarded. -/
def HostPort.workAfter (h : HostPort) (t : Transaction) : Work :=
  match readFrame t.received with
  | some f => if h.mayTake t then .taken f else h.work
  | none => h.work

/-- The rising edge of xCS#: it ends the transaction, if one runs (R179, R180), and xSDO is tri-stated (R174). An xCS# that
is high already does not rise (log 3). -/
def HostPort.finish (h : HostPort) : HostPort :=
  if h.csLow then
    match h.transaction with
    | none => { h with csLow := false, sdo := none }
    | some t => { h.settleResponse t with csLow := false, work := h.workAfter t, transaction := none, sdo := none }
  else h

/-- An edge of xCS# at port `p`: a running port acts on it by `act`; while RESET# is low the port ignores it, and only the
pin stands at its new level (R174). -/
def State.chipSelectEdge (s : State) (p : Port) (low : Bool) (act : HostPort → HostPort) : State :=
  s.setHost p (if s.resetLow then { s.host p with csLow := low } else act (s.host p))

/-- The placement of the built response, which clears the executing flag (R181). With no response built it has no
effect (log 3). -/
def HostPort.place (h : HostPort) : HostPort :=
  match h.work with
  | .answered r => { h with buffer := some r, work := .none }
  | _ => h

/-! ## STATUS -/

/-- A port block of the STATUS payload (R196). -/
def State.portBlock (s : State) (p : Port) : List Byte :=
  let x := s.port p
  [yesNoByte x.session.isOpen, byteOf x.session.number, byteOf x.session.counter, byteOf x.standing.length,
   yesNoByte x.cadence.running] ++
  numBytes x.cadence.counter ++ numBytes x.cadence.latch ++
  [byteOf (s.requestsOf p).length, byteOf x.events.records.length,
   byteOf (x.events.records.countP (·.delivered))] ++
  wordBytes x.events.nextSeq

/-- The attributes byte of a request entry (R197). -/
def attributesByte (r : SweepRequest) : Byte :=
  flagBit (decide (r.port = .b)) 0 ||| flagBit (decide (r.origin = .timer)) 1 ||| flagBit r.isEngaged 2 |||
    flagBit r.cancelling 3 ||| flagBit r.stale 4

/-- A request entry of the STATUS payload (R197). -/
def requestEntry (r : SweepRequest) : List Byte :=
  [byteOf r.id, attributesByte r, byteOf r.session, byteOf r.remaining.length, byteOf r.measured, byteOf r.skipped,
   byteOf r.aborts]

/-- The number of DEFINED slots (R195). -/
def State.definedCount (s : State) : Nat := (List.finRange Config.slotCount).countP fun k => (s.slot k).isSome

/-- The STATUS payload (R195). -/
def State.statusPayload (s : State) : List Byte :=
  wordBytes s.tick ++
  [yesNoByte s.round.isSome, portByte s.lastLeader, yesNoByte s.gate.settings.enabled,
   levelByte s.gate.settings.openLevel, byteOf s.gate.settings.abortLimit, portByte s.gate.holder,
   levelByte s.gate.line, gateStateByte s.gate.observed, byteOf s.definedCount, byteOf s.nextId] ++
  s.portBlock .a ++ s.portBlock .b ++
  [byteOf s.queue.length] ++ s.queue.flatMap requestEntry

/-! ## RESEND -/

/-- The response to a RESEND with tag `tag`: the last-response copy under that tag, or NOTFOUND (R185, R194). -/
def State.resendResponse (s : State) (p : Port) (tag : Byte) : Response :=
  match (s.host p).lastResponse with
  | some r => { r with tag := tag }
  | none => { tag := tag, status := .notFound, session := (s.session p).number, payload := [] }

/-- The action of a RESEND frame (R185). A frame that fails its CRC is answered BADFRAME, and that answer is no
response to RESEND (R182, log 5). -/
def State.resendAction (s : State) (p : Port) (f : Frame) : State :=
  if f.crcOk then s.answer p { response := s.resendResponse p f.tag, ofResend := true }
  else s.respond p f.tag .badFrame []

/-! ## The meanings -/

/-- TRANSACTION_START (R175). -/
def execTransactionStart (p : Port) (s : State) : Host.Outcome State Fault Refusal :=
  .next (s.chipSelectEdge p true HostPort.start)

/-- TRANSACTION_END (R179, R180). -/
def execTransactionEnd (p : Port) (s : State) : Host.Outcome State Fault Refusal :=
  .next (s.chipSelectEdge p false HostPort.finish)

/-- SERIAL_CLOCK_EDGE (R174). -/
def execSerialClockEdge (p : Port) (edge : ClockEdge) (s : State) : Host.Outcome State Fault Refusal :=
  s.whileRunning fun s => s.setHost p ((s.host p).clock p edge)

/-- RESPONSE_PLACEMENT (R181). -/
def execResponsePlacement (p : Port) (s : State) : Host.Outcome State Fault Refusal :=
  s.whileRunning fun s => s.setHost p (s.host p).place

/-- STATUS (R195). -/
def execStatus (p : Port) (s : State) : Host.Outcome State Fault Refusal :=
  runCommand (hasCode codeStatus) false (fun s _ => .accept s s.statusPayload) p s

/-- RESEND (R185). -/
def execResend (p : Port) (s : State) : Host.Outcome State Fault Refusal :=
  s.whileRunning fun s =>
    match s.takenFrame p with
    | none => s
    | some f => if hasCode codeResend f then s.resendAction p f else s

/-- The frames whose code is none of the nineteen command codes (R186). -/
def hasUnknownCode (f : Frame) : Bool := !commandCodes.contains f.code

/-- UNKNOWN_CODE (R182, R186). -/
def execUnknownCode (p : Port) (s : State) : Host.Outcome State Fault Refusal :=
  runCommand hasUnknownCode false (fun _ _ => .refuse .unknown) p s

end Sys2Proof.Machine
end

