-- ==== Sys2Proof/Machine/DeviceReset.lean ====
section
/-! DEFINITION. The two events of RESET#: device reset (R65 and the reset values of every block) and its release
(R86, R124, R174). -/

namespace Sys2Proof.Machine

/-- A host port as device reset leaves it: the level of xCS# is the host's, and the free levels already drawn stay drawn
(log 15). -/
def HostPort.deviceReset (h : HostPort) : HostPort := { HostPort.reset with csLow := h.csLow, draws := h.draws }

def PortState.deviceReset (x : PortState) : PortState := { PortState.reset with host := x.host.deviceReset }

/-- The hub as device reset leaves it; the commands waiting at the block are the world's and keep their place (log 14). -/
def State.deviceReset (s : State) : State :=
  { State.reset with
    ports := { a := s.ports.a.deviceReset, b := s.ports.b.deviceReset }
    pending := s.pending }

/-- A port when RESET# rises: under a low xCS# no transaction is in progress and xSDO is driven (R174). -/
def HostPort.release (p : Port) (h : HostPort) : HostPort := if h.csLow then h.driveOpen p else h

/-- RESET# rises: the line level is the level at which QUIET stands, and the observed state follows (R86, R91); each port
drives its xSDO if its xCS# is low (R174). -/
def State.release (s : State) (quiet : Level) : State :=
  let s := { s with resetLow := false
                    gate := { s.gate with line := quiet, observed := observedState s.gate.settings quiet } }
  (s.setHost .a ((s.host .a).release .a)).setHost .b ((s.host .b).release .b)

/-- DEVICE_RESET (R65). -/
def execDeviceReset (s : State) : Host.Outcome State Fault Refusal := .next s.deviceReset

/-- RESET_RELEASE (R86). A hub whose RESET# is high already sees no rise (log 3). -/
def execResetRelease (quiet : Level) (s : State) : Host.Outcome State Fault Refusal :=
  .next (if s.resetLow then s.release quiet else s)

end Sys2Proof.Machine
end

