-- ==== Sys2Proof/Machine/Dispatch.lean ====
section
/-! DEFINITION. One arm for each command: its meaning. -/

namespace Sys2Proof.Machine

def exec (i : Instr) (s : State) : Host.Outcome State Fault Refusal :=
  match i with
  | .deviceReset => Sys2Proof.Machine.execDeviceReset s
  | .resetRelease quiet => Sys2Proof.Machine.execResetRelease quiet s
  | .quietLevelChange level => Sys2Proof.Machine.execQuietLevelChange level s
  | .tick => Sys2Proof.Machine.execTick s
  | .cadenceExpiry p => Sys2Proof.Machine.execCadenceExpiry p s
  | .transactionStart p => Sys2Proof.Machine.execTransactionStart p s
  | .transactionEnd p => Sys2Proof.Machine.execTransactionEnd p s
  | .responsePlacement p => Sys2Proof.Machine.execResponsePlacement p s
  | .unknownCode p => Sys2Proof.Machine.execUnknownCode p s
  | .openSession p => Sys2Proof.Machine.execOpen p s
  | .closeSession p => Sys2Proof.Machine.execClose p s
  | .status p => Sys2Proof.Machine.execStatus p s
  | .resend p => Sys2Proof.Machine.execResend p s
  | .define p => Sys2Proof.Machine.execDefine p s
  | .modify p => Sys2Proof.Machine.execModify p s
  | .delete p => Sys2Proof.Machine.execDelete p s
  | .subscribe p => Sys2Proof.Machine.execSubscribe p s
  | .unsubscribe p => Sys2Proof.Machine.execUnsubscribe p s
  | .readSlot p => Sys2Proof.Machine.execReadSlot p s
  | .recalibrate p => Sys2Proof.Machine.execRecalibrate p s
  | .setProfile p => Sys2Proof.Machine.execSetProfile p s
  | .setStanding p => Sys2Proof.Machine.execSetStanding p s
  | .sweep p => Sys2Proof.Machine.execSweep p s
  | .cancel p => Sys2Proof.Machine.execCancel p s
  | .load p => Sys2Proof.Machine.execLoad p s
  | .stage p => Sys2Proof.Machine.execStage p s
  | .stop p => Sys2Proof.Machine.execStop p s
  | .resume p => Sys2Proof.Machine.execResume p s
  | .setGate p => Sys2Proof.Machine.execSetGate p s
  | .fetch p => Sys2Proof.Machine.execFetch p s
  | .ack p => Sys2Proof.Machine.execAck p s
  | .dischargeEnd l => Sys2Proof.Machine.execDischargeEnd l s
  | .pulsePhaseEnd l => Sys2Proof.Machine.execPulsePhaseEnd l s
  | .transferPhaseEnd l crossed => Sys2Proof.Machine.execTransferPhaseEnd l crossed s
  | .pulseEnd l => Sys2Proof.Machine.execPulseEnd l s
  | .serialClockEdge p edge => Sys2Proof.Machine.execSerialClockEdge p edge s

end Sys2Proof.Machine
end

