-- ==== Sys2Proof/Machine/HostEncoding.lean ====
section
/-! DEFINITION. What a host sends: the bytes of a command frame (R187), the payloads of the commands (R198–R208), and the
events that a transaction of some bytes brings at a port (R174). The hub's readers (`readFrame`, Operands.lean) are
stated against these. -/

namespace Sys2Proof.Machine

/-! ## Payloads -/

/-- The options byte of DEFINE and MODIFY (R198). -/
def Params.optionsByte (q : Params) : Byte := flagBit q.shared 0 ||| flagBit q.stream 1

/-- Bytes 1 to 13 of the payload of DEFINE and MODIFY (R198). -/
def paramsBytes (q : Params) : List Byte :=
  [byteOf q.lane.val, q.pads.setWidth 8, byteOf q.profile.val] ++
  numBytes q.limit ++ numBytes q.touch ++ numBytes q.release ++
  [byteOf q.debounce, byteOf q.drift, byteOf q.hold, Params.optionsByte q]

/-- The slot choice byte of DEFINE (R198). -/
def choiceByte : SlotChoice → Byte
  | .named k => byteOf k.val
  | .any => 0xFF

/-- A list of slots: its count, then its slot numbers (R191). -/
def slotListBytes (ks : List SlotNo) : List Byte := byteOf ks.length :: ks.map fun k => byteOf k.val

/-- The payload of SWEEP (R203). -/
def sweepBytes : SweepChoice → List Byte
  | .standing => [0xFF]
  | .explicit ks => slotListBytes ks

/-- The action byte of SET_CADENCE (R205). -/
def actionByte : CadenceAction → Byte
  | .load => 1
  | .stage => 2
  | .stop => 3
  | .resume => 4

/-- The payload of SET_CADENCE (R205). -/
def setCadenceBytes (a : CadenceAction) (n : Nat) : List Byte := actionByte a :: numBytes n

/-- The payload of SET_GATE (R206). -/
def gateBytes (g : GateSettings) : List Byte := [yesNoByte g.enabled, levelByte g.openLevel, byteOf g.abortLimit]

/-! ## Frames -/

/-- A command frame with the CRC that its bytes call for (R178, R187). -/
def soundFrame (code tag : Byte) (payload : List Byte) : Frame :=
  { code := code, tag := tag, payload := payload, crc := crc8 ([code, tag, byteOf payload.length] ++ payload) }

/-- The bytes of a command frame on the wire (R187). -/
def frameBytes (f : Frame) : List Byte := f.body ++ [f.crc]

/-! ## Transactions -/

/-- The bits of a byte, most significant first (R174). -/
def bitsOf (b : Byte) : List Bool := (List.range 8).map b.getMsbD

/-- One bit on the wire: the hub samples it on the rising edge, and changes its own on the falling edge (R174). -/
def bitEdges (p : Port) (bit : Bool) : List Instr := [.serialClockEdge p (.rising bit), .serialClockEdge p .falling]

/-- The events of a transaction in which port `p`'s host sends `bytes` (R174). -/
def transactionEvents (p : Port) (bytes : List Byte) : List Instr :=
  [.transactionStart p] ++ (bytes.flatMap bitsOf).flatMap (bitEdges p) ++ [.transactionEnd p]

end Sys2Proof.Machine
end

