-- ==== Sys2Proof/Safety.lean ====
section
/-! DEFINITION. What holds in every state that a run of the hub reaches: the invariants the spec states of its blocks,
in the terms the claims use. -/

namespace Sys2Proof.Machine

/-! ## A command in execution -/

/-- RESET# is high, and port `p` has taken the frame `f`, whose CRC is right and whose code is `code`: the command's own
row executes it, and checks 1 and 2 pass (R181, R182). -/
structure State.Executes (s : State) (p : Port) (f : Frame) (code : Byte) : Prop where
  running : s.resetLow = false
  taken : (s.host p).work = .taken f
  code_eq : f.code = code
  crc : f.crcOk = true

/-- And the port's session is OPEN: check 3 passes (R182). -/
structure State.ExecutesOpen (s : State) (p : Port) (f : Frame) (code : Byte) : Prop extends s.Executes p f code where
  isOpen : (s.session p).isOpen = true

/-- The host commands that need an OPEN session (R182), each with its row and its code (R186); SET_CADENCE apart. -/
def sessionRows (p : Port) : List (Instr × Byte) :=
  [(.closeSession p, 0x02), (.define p, 0x10), (.modify p, 0x11), (.delete p, 0x12), (.subscribe p, 0x13),
   (.unsubscribe p, 0x14), (.readSlot p, 0x15), (.recalibrate p, 0x16), (.setProfile p, 0x18), (.setStanding p, 0x20),
   (.sweep p, 0x21), (.cancel p, 0x22), (.setGate p, 0x30), (.fetch p, 0x38), (.ack p, 0x39)]

/-- The host commands that either session state allows (R182), each with its row and its code (R186). -/
def eitherStateRows (p : Port) : List (Instr × Byte) := [(.openSession p, 0x01), (.status p, 0x03), (.resend p, 0x04)]

/-- The four rows of SET_CADENCE, code 0x28, each with its action (R130). -/
def cadenceRows (p : Port) : List (Instr × CadenceAction) :=
  [(.load p, .load), (.stage p, .stage), (.stop p, .stop), (.resume p, .resume)]

/-! ## Sessions, timers, gate -/

/-- A port's session number is 0 while CLOSED, and while OPEN it is the counter's value, from 1 to 255 (R159, R161). -/
def State.SessionInv (s : State) : Prop :=
  ∀ p : Port,
    ((s.session p).isOpen = false → (s.session p).number = 0) ∧
    ((s.session p).isOpen = true → 1 ≤ (s.session p).number ∧ (s.session p).number = (s.session p).counter) ∧
    (s.session p).counter ≤ 255

/-- A cadence timer is RUNNING only while its port's session is OPEN (R135), its counter and latch stay in the ranges
of R127, and no tick waits before a STOPPED timer (R128). -/
def State.CadenceInv (s : State) : Prop :=
  ∀ p : Port,
    ((s.cadence p).running = true → (s.session p).isOpen = true) ∧
    1 ≤ (s.cadence p).counter ∧ (s.cadence p).counter ≤ 50000 ∧
    5 ≤ (s.cadence p).latch ∧ (s.cadence p).latch ≤ 50000 ∧
    ((s.cadence p).running = false → (s.cadence p).owed = 0)

/-- The gate's observed state is the one its settings and line level give (R91), its holder is none or an OPEN port
(R88), and its abort limit is 1–8 (R87). -/
def State.GateInv (s : State) : Prop :=
  s.gate.observed = observedState s.gate.settings s.gate.line ∧
  (∀ p : Port, s.gate.holder = some p → (s.session p).isOpen = true) ∧
  1 ≤ s.gate.settings.abortLimit ∧ s.gate.settings.abortLimit ≤ 8

/-- Every profile's lengths are 2–64 core clocks (R81). -/
def State.ProfileInv (s : State) : Prop :=
  ∀ i : ProfileNo, 2 ≤ s.profiles[i].charge ∧ s.profiles[i].charge ≤ 64 ∧
    2 ≤ s.profiles[i].transfer ∧ s.profiles[i].transfer ≤ 64

/-! ## Event queues -/

/-- The sequence numbers rise by one from head to tail, the next sequence number following the tail (R139, R147). -/
def EventQueue.seqRises (q : EventQueue) : Prop :=
  ∀ (i : Nat) (h : i < q.records.length), (q.records[i]).seq = q.nextSeq - BitVec.ofNat 16 (q.records.length - i)

/-- The delivered records form a prefix of the queue (R139). -/
def EventQueue.deliveredPrefix (q : EventQueue) : Prop :=
  q.records.Pairwise fun r r' => r'.delivered = true → r.delivered = true

/-- R139: at most 24 records, sequence numbers rising by one, the delivered records a prefix, and the queue of a CLOSED
port empty with next sequence number 0 (R155). -/
def State.EventQueueInv (s : State) : Prop :=
  ∀ p : Port,
    (s.events p).records.length ≤ Config.eventCapacity ∧
    (s.events p).seqRises ∧
    (s.events p).deliveredPrefix ∧
    ((s.session p).isOpen = false → (s.events p).records = [] ∧ (s.events p).nextSeq = 0)

/-! ## Slots and standing lists -/

/-- R6: every defined slot's subscriber set contains its owner, that of a slot not shared is exactly its owner, and a
CLOSED port subscribes to no slot it does not own. -/
def State.SubscriberInv (s : State) : Prop :=
  ∀ k : SlotNo, ∀ r ∈ s.slot k,
    r.subs.get r.owner = true ∧
    (r.params.shared = false → r.subs.get r.owner.other = false) ∧
    ((s.session r.owner.other).isOpen = false → r.subs.get r.owner.other = false)

/-- Every defined slot's parameters are in the ranges of R2. -/
def State.ParamsInv (s : State) : Prop := ∀ k : SlotNo, ∀ r ∈ s.slot k, r.params.wellFormed = true

/-- R8, R30: a standing list names no slot twice, every slot in it is defined and has the port among its subscribers,
and a CLOSED port's standing list is empty. -/
def State.StandingInv (s : State) : Prop :=
  ∀ p : Port,
    (s.standing p).Nodup ∧
    (∀ k ∈ s.standing p, s.subscribes p k = true) ∧
    ((s.session p).isOpen = false → s.standing p = [])

/-! ## The sweep queue -/

/-- R27, R29: at most three requests of each port and at most one of them of origin TIMER; the sweep ids are distinct
and lie in 1–255, as the next-id counter does. -/
def State.ShareInv (s : State) : Prop :=
  (∀ p : Port, (s.requestsOf p).length ≤ Config.requestsPerPort ∧
    ((s.requestsOf p).filter fun r => decide (r.origin = .timer)).length ≤ 1) ∧
  (s.queue.map (·.id)).Nodup ∧
  (∀ r ∈ s.queue, 1 ≤ r.id ∧ r.id ≤ 255) ∧
  1 ≤ s.nextId ∧ s.nextId ≤ 255

/-- R28: every queued request has a non-empty remaining list of distinct defined slots, and but for a cancelling
request its port subscribes to each of them. -/
def State.RemainingInv (s : State) : Prop :=
  ∀ r ∈ s.queue,
    r.remaining ≠ [] ∧ r.remaining.Nodup ∧
    (∀ k ∈ r.remaining, (s.slot k).isSome = true) ∧
    (r.cancelling = false → ∀ k ∈ r.remaining, s.subscribes r.port k = true)

/-- R25, R26, R197: the slots measured, skipped and remaining of a queued request are at most 32 in all, its abort count
stays below 8 (R94), and its session number is a session's. -/
def State.CountsInv (s : State) : Prop :=
  ∀ r ∈ s.queue,
    r.measured + r.skipped + r.remaining.length ≤ Config.slotListMax ∧ r.aborts ≤ 7 ∧
    1 ≤ r.session ∧ r.session ≤ 255

/-- A request marked cancelling is engaged (R39), a stale one is cancelling (R44), an engaged slot stands in the
remaining list and in the running round's lane table (R48), and without a round no request is engaged. -/
def State.EngagedInv (s : State) : Prop :=
  ∀ r ∈ s.queue,
    (r.cancelling = true → r.isEngaged = true) ∧
    (r.stale = true → r.cancelling = true) ∧
    (∀ k ∈ r.engaged, k ∈ r.remaining ∧ ∃ round ∈ s.round, round.holds k = true)

/-! ## Rounds and lanes -/

/-- R48, R53: the slot of each entry of the lane table is defined and lies on the entry's lane, and a slot is marked
in flight exactly when it is the slot of some lane in the running round. -/
def State.InFlightInv (s : State) : Prop :=
  (∀ round ∈ s.round, ∀ l : LaneNo, ∀ k ∈ round.lanes[l], s.laneOf k = some l) ∧
  (∀ k : SlotNo, ∀ r ∈ s.slot k, r.inFlight = true ↔ ∃ round ∈ s.round, round.holds k = true)

/-- The arbiter leaves no round unformed: with no round in progress, the queue is empty or the gate is SHUT (R49). -/
def State.NoIdleArbiterInv (s : State) : Prop :=
  s.round = none → s.queue = [] ∨ s.gate.observed = .shut

/-- A running round has an engaged lane that has not ended (its last one to end completes it, R56) and an engaged
request (R48). -/
def State.RoundLiveInv (s : State) : Prop :=
  ∀ round ∈ s.round,
    (∃ l : LaneNo, (round.lanes[l]).isSome = true ∧ (s.lane l).state ≠ .ended) ∧
    ∃ r ∈ s.queue, r.isEngaged = true

/-- What a lane in DISCHARGE, PULSING or ENDED has present, in the ranges of R67. -/
def Lane.Loaded (x : Lane) : Prop :=
  x.slot.isSome = true ∧ x.pads ≠ 0 ∧
  (∃ c ∈ x.charge, 2 ≤ c ∧ c ≤ 64) ∧ (∃ t ∈ x.transfer, 2 ≤ t ∧ t ≤ 64) ∧ (∃ n ∈ x.limit, 64 ≤ n ∧ n ≤ 30000)

/-- The pulses and the core clocks of a lane in a phase of PULSING (R71–R73, R85): `n` is the transfer limit. -/
def Lane.PhaseConsistent (x : Lane) (n : Nat) : Phase → Prop
  | .charge => x.counter < n ∧ x.elapsed = 120 + x.counter * x.pulsePeriod
  | .gapAfterCharge => x.counter < n ∧ x.elapsed = 120 + x.counter * x.pulsePeriod + x.charge.getD 0
  | .transfer => x.counter < n ∧ x.elapsed = 120 + x.counter * x.pulsePeriod + x.charge.getD 0 + 2
  | .gapAfterTransfer _ => 1 ≤ x.counter ∧ x.counter ≤ n ∧ x.elapsed + 2 = 120 + x.counter * x.pulsePeriod

/-- The reading of a lane in ENDED (R74–R76), and the duration of its conversion: 120 core clocks and one pulse period
for each pulse of the reading (R85). -/
def Lane.EndConsistent (x : Lane) (n : Nat) (rd : Reading) : Prop :=
  rd.value = x.counter ∧ 1 ≤ rd.value ∧ rd.value ≤ n ∧ (rd.sat = true → rd.value = n) ∧
  (rd.low = true ↔ rd.value < 8) ∧ x.elapsed = 120 + rd.value * x.pulsePeriod

/-- What a lane holds in each of its states (R67, R73–R76), and the core clocks its conversion has lasted (R71, R72,
R85). -/
def Lane.Consistent (x : Lane) : Prop :=
  match x.state with
  | .idle => x = Lane.idle
  | .discharge => x.Loaded ∧ x.counter = 0 ∧ x.reading = none ∧ x.elapsed = 0
  | .pulsing phase => x.Loaded ∧ x.reading = none ∧ ∃ n ∈ x.limit, x.PhaseConsistent n phase
  | .ended => x.Loaded ∧ ∃ n ∈ x.limit, ∃ rd ∈ x.reading, x.EndConsistent n rd

/-- Every lane is consistent, and its slot is the one the running round's lane table names for it (R67). -/
def State.LaneInv (s : State) : Prop :=
  ∀ l : LaneNo, (s.lane l).Consistent ∧ (s.lane l).slot = s.round.bind fun round => round.lanes[l]

/-! ## Key fields -/

/-- The table of R101, with the ranges of R3: what the key fields of a slot with parameters `q` hold in each state. -/
def KeyFields.InRange (q : Params) (k : KeyFields) : Prop :=
  (∀ b ∈ k.baseline, 1 ≤ b ∧ b ≤ 30000) ∧
  (k.state ≠ .uncal → k.calSum = 0 ∧ k.calCount = 0) ∧
  (k.state ≠ .fault → k.badRun ≤ 2) ∧ k.badRun ≤ 3 ∧
  match k.state with
  | .uncal => k.baseline = none ∧ k.confirm = 0 ∧ k.drift = 0 ∧ k.hold = 0 ∧ k.calCount ≤ 3 ∧
      8 * k.calCount ≤ k.calSum ∧ k.calSum ≤ 30000 * k.calCount
  | .idle => k.baseline.isSome = true ∧ k.confirm = 0 ∧ k.hold = 0 ∧ k.drift ≤ q.drift - 1
  | .arming => k.baseline.isSome = true ∧ 1 ≤ k.confirm ∧ k.confirm < q.debounce ∧ k.drift = 0 ∧ k.hold = 0
  | .held => k.baseline.isSome = true ∧ k.confirm = 0 ∧ k.drift = 0 ∧ k.hold ≤ 255 ∧ (q.hold ≠ 0 → k.hold < q.hold)
  | .lifting => k.baseline.isSome = true ∧ 1 ≤ k.confirm ∧ k.confirm < q.debounce ∧ k.drift = 0 ∧ k.hold ≤ 255 ∧
      (q.hold ≠ 0 → k.hold < q.hold)
  | .fault => k.confirm = 0 ∧ k.drift = 0 ∧ k.hold = 0

/-- The key fields of every defined slot stand in their ranges (R101); a pressed key has a last reading (R117), and a
last reading lies in 1–30000 (R4). -/
def State.KeyInv (s : State) : Prop :=
  ∀ k : SlotNo, ∀ r ∈ s.slot k,
    r.key.InRange r.params ∧
    (r.key.state.pressed = true → r.last.isSome = true) ∧
    ∀ l ∈ r.last, 1 ≤ l.reading.value ∧ l.reading.value ≤ 30000

/-! ## Host ports -/

/-- R173, R174: while a command is executing the buffer is empty; a transaction runs under a low xCS#, holds fewer than
eight bits after its whole bytes, and its marker still fits the port (BUSY apart, which any placement may outlive). -/
def HostPort.Consistent (h : HostPort) : Prop :=
  (h.executing = true → h.buffer = none) ∧
  (∀ t ∈ h.transaction, h.csLow = true ∧ t.bits.length < 8 ∧
    (t.marker = .response → h.executing = false ∧ h.buffer.isSome = true) ∧
    (t.marker = .none → h.executing = false ∧ h.buffer = none))

/-- Both host ports are consistent; xSDO is driven exactly while xCS# is low and RESET# is high, and no transaction runs
while RESET# is low (R174). -/
def State.HostPortInv (s : State) : Prop :=
  ∀ p : Port, (s.host p).Consistent ∧
    ((s.host p).sdo.isSome = true ↔ (s.host p).csLow = true ∧ s.resetLow = false) ∧
    (s.resetLow = true → (s.host p).transaction = none)

/-- While RESET# is low every block stands at its reset values (R65, R79, R124, R152, R173). -/
def State.ResetInv (s : State) : Prop := s.resetLow = true → s = s.deviceReset

end Sys2Proof.Machine
end

