-- ==== Sys2Proof/Certificates/Slice0/Obligations.lean ====
section
/-! DEFINITION. The statements for the provers: what each command and event of the hub does, and what every step keeps. -/

open Sys2Proof Sys2Proof.Machine

/-! ## The block and its queue -/

/-- A step takes the command at the front of the queue and runs it with the queue's rest. -/
def Obligations.StepRunsFrontCommand : Prop :=
  ∀ (c : Instr) (rest : List Instr) (s : State),
    step { s with pending := c :: rest } = exec c { s with pending := rest }

/-- The model's choice (logs 2, 3 and 4): a step on an empty queue, and an event or a row that cannot arise in the present
state, change nothing; the row of a host command among them, where its port has taken no frame or a frame of another
command. -/
def Obligations.NothingToDoChangesNothing : Prop :=
  (∀ s : State, s.pending = [] → step s = .next s) ∧
  (∀ (s : State) (quiet : Level), s.resetLow = false → exec (.resetRelease quiet) s = .next s) ∧
  (∀ (s : State) (l : LaneNo), (s.lane l).state ≠ .discharge → exec (.dischargeEnd l) s = .next s) ∧
  (∀ (s : State) (l : LaneNo), (s.lane l).state ≠ .pulsing .charge → (s.lane l).state ≠ .pulsing .gapAfterCharge →
    exec (.pulsePhaseEnd l) s = .next s) ∧
  (∀ (s : State) (l : LaneNo) (crossed : Bool), (s.lane l).state ≠ .pulsing .transfer →
    exec (.transferPhaseEnd l crossed) s = .next s) ∧
  (∀ (s : State) (l : LaneNo), (∀ crossed, (s.lane l).state ≠ .pulsing (.gapAfterTransfer crossed)) →
    exec (.pulseEnd l) s = .next s) ∧
  (∀ (s : State) (p : Port), (s.cadence p).running = false ∨ (s.cadence p).owed = 0 →
    exec (.cadenceExpiry p) s = .next s) ∧
  (∀ (s : State) (p : Port), (s.host p).csLow = true → exec (.transactionStart p) s = .next s) ∧
  (∀ (s : State) (p : Port), (s.host p).csLow = false → exec (.transactionEnd p) s = .next s) ∧
  (∀ (s : State) (p : Port) (edge : ClockEdge), (s.host p).transaction = none →
    (s.host p).csLow = false ∨ (∃ sdi, edge = .rising sdi) → exec (.serialClockEdge p edge) s = .next s) ∧
  (∀ (s : State) (p : Port), (∀ r, (s.host p).work ≠ .answered r) → exec (.responsePlacement p) s = .next s) ∧
  (∀ (s : State) (p : Port), (∀ f, (s.host p).work ≠ .taken f) →
    ∀ c ∈ Instr.unknownCode p :: (sessionRows p ++ eitherStateRows p).map (·.1) ++ (cadenceRows p).map (·.1),
    exec c s = .next s) ∧
  (∀ (s : State) (p : Port) (f : Frame), (s.host p).work = .taken f →
    (∀ row ∈ sessionRows p ++ eitherStateRows p, f.code ≠ row.2 → exec row.1 s = .next s) ∧
    (∀ row ∈ cadenceRows p, f.code ≠ 0x28 ∨ (f.cadenceAction ≠ none ∧ f.cadenceAction ≠ some row.2) →
      exec row.1 s = .next s) ∧
    (f.code ∈ ([0x01, 0x02, 0x03, 0x04, 0x10, 0x11, 0x12, 0x13, 0x14, 0x15, 0x16, 0x18, 0x20, 0x21, 0x22, 0x28, 0x30,
        0x38, 0x39] : List Byte) →
      exec (.unknownCode p) s = .next s))

/-- No command of the hub ends in a fault or a refusal. That none touches the queue of the commands behind it is the model's
choice: the queue is the model's own (log 2), and DEVICE_RESET keeps it (log 14). -/
def Obligations.EveryCommandAnswersNext : Prop :=
  ∀ (i : Instr) (s : State), ∃ t, exec i s = .next t ∧ t.pending = s.pending

/-- The value of each item of state at device reset, as its own rule gives it. The line level, for which the spec gives
no value, is not among them (log 1). -/
def Obligations.ResetValues : Prop :=
  State.reset.tick = 0 ∧
  (∀ k : SlotNo, State.reset.slot k = none) ∧
  (∀ i : ProfileNo, State.reset.profiles[i] = { charge := 24, transfer := 24 }) ∧
  State.reset.queue = [] ∧ State.reset.nextId = 1 ∧
  State.reset.round = none ∧ State.reset.lastLeader = none ∧
  (∀ l : LaneNo,
    (State.reset.lane l).state = .idle ∧ (State.reset.lane l).slot = none ∧ (State.reset.lane l).pads = 0 ∧
    (State.reset.lane l).charge = none ∧ (State.reset.lane l).transfer = none ∧ (State.reset.lane l).limit = none ∧
    (State.reset.lane l).counter = 0 ∧ (State.reset.lane l).reading = none) ∧
  State.reset.gate.settings = { enabled := false, openLevel := .high, abortLimit := 3 } ∧
  State.reset.gate.holder = none ∧ State.reset.gate.observed = .opened ∧
  ∀ p : Port,
    (State.reset.host p).transaction = none ∧ (State.reset.host p).work = .none ∧ (State.reset.host p).buffer = none ∧
    (State.reset.host p).lastResponse = none ∧ (State.reset.host p).sdo = none ∧
    State.reset.session p = { isOpen := false, number := 0, counter := 0 } ∧
    State.reset.standing p = [] ∧
    (State.reset.cadence p).running = false ∧ (State.reset.cadence p).counter = 1000 ∧
    (State.reset.cadence p).latch = 1000 ∧
    State.reset.events p = { records := [], nextSeq := 0 } ∧
    State.reset.attentionLow p = false

/-- DEVICE_RESET brings every block to its reset value from any state; RESET_RELEASE takes the line level from QUIET, and a
port whose xCS# is low drives xSDO from then on; while RESET# is low no other event or command has an effect, but that an
edge of xCS# moves that pin. The model's choices are that DEVICE_RESET keeps the commands that wait (log 14), that it puts
the line level, for which the spec gives no reset value, at LOW (log 1), and that it keeps the level of xCS# and the count of
the levels of xSDO that R174 leaves open (log 15). -/
def Obligations.ResetEvents : Prop :=
  (∀ s : State,
    let kept := fun p : Port => { PortState.reset with
      host := { HostPort.reset with csLow := (s.host p).csLow, draws := (s.host p).draws } }
    exec .deviceReset s = .next { State.reset with ports := { a := kept .a, b := kept .b }, pending := s.pending }) ∧
  (∀ (s : State) (quiet : Level), s.resetLow = true →
    let released : State := { s with
      resetLow := false
      gate := { s.gate with
        line := quiet
        observed := if s.gate.settings.enabled = true ∧ quiet ≠ s.gate.settings.openLevel then .shut else .opened } }
    let driven := fun p : Port =>
      if (s.host p).csLow = true then
        { s.host p with
          sdo := some (Config.openSdo (decide (p = .b)) (s.host p).draws)
          draws := (s.host p).draws + 1 }
      else s.host p
    exec (.resetRelease quiet) s = .next ((released.setHost .a (driven .a)).setHost .b (driven .b))) ∧
  (∀ (s : State) (p : Port), s.resetLow = true →
    exec (.transactionStart p) s = .next (s.setHost p { s.host p with csLow := true }) ∧
    exec (.transactionEnd p) s = .next (s.setHost p { s.host p with csLow := false })) ∧
  (∀ (s : State) (i : Instr), s.resetLow = true → i ≠ .deviceReset → (∀ quiet, i ≠ .resetRelease quiet) →
    (∀ p, i ≠ .transactionStart p ∧ i ≠ .transactionEnd p) → exec i s = .next s)

/-! ## The lanes -/

/-- The ends of DISCHARGE, of a charge phase, of the gap after it and of a transfer phase, each with the core clocks it
lasted, which the model counts in a field of its own (log 8); the transfer phase raises the pulse counter and takes the
comparison. -/
def Obligations.LanePhaseEnds : Prop :=
  ∀ (s : State) (l : LaneNo), s.resetLow = false →
    ((s.lane l).state = .discharge →
      exec (.dischargeEnd l) s =
        .next (s.setLane l { s.lane l with state := .pulsing .charge, elapsed := (s.lane l).elapsed + 120 })) ∧
    ((s.lane l).state = .pulsing .charge →
      exec (.pulsePhaseEnd l) s =
        .next (s.setLane l { s.lane l with
          state := .pulsing .gapAfterCharge
          elapsed := (s.lane l).elapsed + (s.lane l).charge.getD 0 })) ∧
    ((s.lane l).state = .pulsing .gapAfterCharge →
      exec (.pulsePhaseEnd l) s =
        .next (s.setLane l { s.lane l with state := .pulsing .transfer, elapsed := (s.lane l).elapsed + 2 })) ∧
    (∀ crossed, (s.lane l).state = .pulsing .transfer →
      exec (.transferPhaseEnd l crossed) s =
        .next (s.setLane l { s.lane l with
          state := .pulsing (.gapAfterTransfer crossed)
          counter := (s.lane l).counter + 1
          elapsed := (s.lane l).elapsed + (s.lane l).transfer.getD 0 }))

/-- The end of a pulse: the next pulse begins; or the lane enters ENDED with its reading and waits for the other engaged
lanes of the round; or, where it is the last of them, the round completes. The count of core clocks is the model's own
field (log 8). -/
def Obligations.PulseEndDecides : Prop :=
  ∀ (s : State) (l : LaneNo) (crossed : Bool), s.resetLow = false →
    (s.lane l).state = .pulsing (.gapAfterTransfer crossed) →
    let ended : State := s.setLane l { s.lane l with
      state := .ended
      elapsed := (s.lane l).elapsed + 2
      reading := some
        { value := (s.lane l).counter, sat := !crossed, low := decide ((s.lane l).counter < 8) } }
    (crossed = false → (s.lane l).limit ≠ some (s.lane l).counter →
      exec (.pulseEnd l) s =
        .next (s.setLane l { s.lane l with state := .pulsing .charge, elapsed := (s.lane l).elapsed + 2 })) ∧
    (∀ round, s.round = some round → crossed = true ∨ (s.lane l).limit = some (s.lane l).counter →
      ((∃ l', l' ≠ l ∧ (round.lanes[l']).isSome = true ∧ (s.lane l').state ≠ .ended) →
        exec (.pulseEnd l) s = .next ended) ∧
      ((∀ l', l' ≠ l → (round.lanes[l']).isSome = true → (s.lane l').state = .ended) →
        exec (.pulseEnd l) s = .next (ended.completeRound round)))

/-- The six pins of a lane in each of its states and phases: a shield pad is always grounded, and outside PULSING all are. -/
def Obligations.LanePins : Prop :=
  ∀ (x : Lane) (pad : Fin 5),
    (x.pads.getLsbD pad.val = false → x.padPin pad = .grounded) ∧
    ((∀ phase, x.state ≠ .pulsing phase) → x.reservoirPin = .grounded ∧ x.padPin pad = .grounded) ∧
    (x.pads.getLsbD pad.val = true →
      (x.state = .pulsing .charge → x.reservoirPin = .floating ∧ x.padPin pad = .high) ∧
      (x.state = .pulsing .gapAfterCharge → x.reservoirPin = .floating ∧ x.padPin pad = .floating) ∧
      (x.state = .pulsing .transfer → x.reservoirPin = .joined ∧ x.padPin pad = .joined) ∧
      (∀ crossed, x.state = .pulsing (.gapAfterTransfer crossed) →
        x.reservoirPin = .floating ∧ x.padPin pad = .floating))

/-! ## Rounds -/

/-- R50. The leader port of a new round: the port other than the last leader where it has a queued request, else the
port that has one; with no last leader, Port A where it has one, else Port B. Every queued request counts: while no round
runs none of them is marked cancelling. -/
def Obligations.LeaderAlternates : Prop :=
  ∀ s : State, s.queue ≠ [] →
    (s.EngagedInv → s.round = none → ∀ r ∈ s.queue, r.cancelling = false) ∧
    (∃ r ∈ s.queue, r.port = s.nextLeader) ∧
    (∀ p, s.lastLeader = some p → (∃ r ∈ s.queue, r.port = p.other) → s.nextLeader = p.other) ∧
    (∀ p, s.lastLeader = some p → (∀ r ∈ s.queue, r.port ≠ p.other) → s.nextLeader = p) ∧
    (s.lastLeader = none → (∃ r ∈ s.queue, r.port = .a) → s.nextLeader = .a) ∧
    (s.lastLeader = none → (∀ r ∈ s.queue, r.port ≠ .a) → s.nextLeader = .b)

/-- The round-start check: without its condition it does nothing; with it a round is formed whose lanes are given slots
in the order of examination, whose requests are engaged on the slots of their lists that it converts, whose slots are in
flight, and whose lanes begin their conversions with the values copied from slot record and profile, and with the model's own
count of core clocks at 0 (log 8). -/
def Obligations.RoundStart : Prop :=
  ∀ s : State,
    ((s.round ≠ none ∨ s.queue = [] ∨ s.gate.observed = .shut) → s.roundStartCheck = s) ∧
    (s.round = none → s.gate.observed = .opened →
      ∀ (before after : List SweepRequest) (oldest : SweepRequest),
        s.queue = before ++ oldest :: after → oldest.port = s.nextLeader → (∀ r ∈ before, r.port ≠ s.nextLeader) →
        let t := s.roundStartCheck
        ∃ round : Round, t.round = some round ∧ round.leader = s.nextLeader ∧ t.lastLeader = some round.leader ∧
          (∀ l : LaneNo, round.lanes[l] =
            ((oldest :: before ++ after).flatMap (·.remaining)).find? fun k => decide (s.laneOf k = some l)) ∧
          t.queue = s.queue.map (fun r : SweepRequest =>
            { r with engaged := r.remaining.filter fun k => decide (∃ l : LaneNo, round.lanes[l] = some k) }) ∧
          (∀ k : SlotNo, t.slot k =
            if ∃ l : LaneNo, round.lanes[l] = some k then (s.slot k).map fun r : SlotRecord => { r with inFlight := true }
            else s.slot k) ∧
          (∀ l : LaneNo, round.lanes[l] = none → t.lane l = s.lane l) ∧
          (∀ (l : LaneNo) (k : SlotNo) (r : SlotRecord), round.lanes[l] = some k → s.slot k = some r →
            t.lane l =
              { state := .discharge, slot := some k, pads := r.params.pads
                charge := some s.profiles[r.params.profile].charge
                transfer := some s.profiles[r.params.profile].transfer
                limit := some r.params.limit, counter := 0, reading := none, elapsed := 0 }) ∧
          t.resetLow = s.resetLow ∧ t.tick = s.tick ∧ t.profiles = s.profiles ∧ t.nextId = s.nextId ∧ t.gate = s.gate ∧
          t.ports = s.ports)

/-- Round completion: the lanes' readings become last readings and go to the key machines, the engaged requests are
credited and leave where they are cancelling or empty, the marks are cleared and the engaged lanes return to IDLE, the model's
own count of core clocks with them (log 8); then comes the round-start check. -/
def Obligations.RoundCompletion : Prop :=
  ∀ (s : State) (round : Round),
    ∃ u : State, s.completeRound round = u.roundStartCheck ∧
      u.round = none ∧ u.lastLeader = s.lastLeader ∧
      (∀ l : LaneNo, u.lane l = if (round.lanes[l]).isSome = true then Lane.idle else s.lane l) ∧
      (∀ k : SlotNo, (∀ l : LaneNo, round.lanes[l] ≠ some k) → u.slot k = s.slot k) ∧
      (∀ (l : LaneNo) (k : SlotNo) (r : SlotRecord) (rd : Reading), round.lanes[l] = some k →
        (∀ l' : LaneNo, round.lanes[l'] = some k → l' = l) → s.slot k = some r → (s.lane l).reading = some rd →
        u.slot k = some { r with
          last := some { reading := rd, tick := s.tick }
          key := (takeReading r.params r.key rd).1
          inFlight := false }) ∧
      u.queue = s.queue.filterMap (fun r : SweepRequest =>
        if r.engaged = [] then some r
        else
          let rest := r.remaining.filter fun k => decide (k ∉ r.engaged)
          if r.cancelling = true ∨ rest = [] then none
          else some { r with
            remaining := rest
            measured := r.measured + (r.remaining.length - rest.length)
            engaged := [] }) ∧
      u.resetLow = s.resetLow ∧ u.tick = s.tick ∧ u.profiles = s.profiles ∧ u.nextId = s.nextId ∧ u.gate = s.gate ∧
      (∀ q : Port, u.host q = s.host q ∧ u.session q = s.session q ∧ u.standing q = s.standing q ∧
        u.cadence q = s.cadence q)

/-- What a round completion posts to an OPEN port: lane by lane the READING of a streaming slot and then its key event,
where the port subscribes; then, in queue order, the sweep events of the port's own requests that leave. And the fields of
the three shapes of event, here and in every statement that names them: a key event or SLOT_GONE, a READING, and a sweep event
or CADENCE_SLIP. -/
def Obligations.RoundCompletionPostsInOrder : Prop :=
  (∀ (k : SlotNo) (kind : EventKind) (value : Int) (forced washeld : Bool),
    keyEvent k kind value forced washeld =
      { kind := kind, slot := some k, sweepId := 0, value := value, aux := none, sat := false, low := false
        forced := forced, washeld := washeld }) ∧
  (∀ (k : SlotNo) (rd : Reading) (baseline : Option Nat),
    readingEvent k rd baseline =
      { kind := .reading, slot := some k, sweepId := 0, value := rd.value, aux := baseline, sat := rd.sat, low := rd.low
        forced := false, washeld := false }) ∧
  (∀ (kind : EventKind) (id value : Nat) (aux : Option Nat),
    sweepEvent kind id value aux =
      { kind := kind, slot := none, sweepId := id, value := value, aux := aux, sat := false, low := false
        forced := false, washeld := false }) ∧
  ∀ (s : State) (round : Round) (q : Port),
    (∀ (l l' : LaneNo) (k : SlotNo), round.lanes[l] = some k → round.lanes[l'] = some k → l = l') →
    (s.completeRound round).events q =
      if (s.session q).isOpen = true then
        ((([0, 1, 2, 3] : List LaneNo).flatMap fun l =>
            match round.lanes[l], (s.lane l).reading with
            | some k, some rd =>
              match s.slot k with
              | some r =>
                let key := takeReading r.params r.key rd
                if r.subs.get q = true then
                  (if r.params.stream = true then [readingEvent k rd key.1.baseline] else []) ++
                  (key.2.map fun e => keyEvent k e.kind e.value e.forced e.washeld).toList
                else []
              | none => []
            | _, _ => []) ++
         (s.queue.flatMap fun r =>
            if r.engaged = [] ∨ r.port ≠ q ∨ r.stale = true then []
            else
              let rest := r.remaining.filter fun k => decide (k ∉ r.engaged)
              if r.cancelling = true then [sweepEvent .sweepCancelled r.id rest.length none]
              else if rest = [] then [sweepEvent .sweepDone r.id (r.measured + r.remaining.length) (some r.skipped)]
              else [])).foldl (fun Q e => Q.post e s.tick) (s.events q)
      else s.events q

/-- Round abort: no reading is handed on; every engaged request's abort count rises and it leaves where it is cancelling
or at the limit in force; the marks are cleared and every lane returns to IDLE, the model's own count of core clocks with it
(log 8); then comes the round-start check. -/
def Obligations.RoundAbort : Prop :=
  ∀ (s : State) (round : Round),
    ∃ u : State, s.abortRound round = u.roundStartCheck ∧
      u.round = none ∧ u.lastLeader = s.lastLeader ∧
      (∀ l : LaneNo, u.lane l = Lane.idle) ∧
      (∀ k : SlotNo, u.slot k =
        if ∃ l : LaneNo, round.lanes[l] = some k then (s.slot k).map fun r : SlotRecord => { r with inFlight := false }
        else s.slot k) ∧
      u.queue = s.queue.filterMap (fun r : SweepRequest =>
        if r.engaged = [] then some r
        else if r.cancelling = true ∨ s.gate.settings.abortLimit ≤ r.aborts + 1 then none
        else some { r with aborts := r.aborts + 1, engaged := [] }) ∧
      (∀ q : Port, u.events q =
        if (s.session q).isOpen = true then
          (s.queue.flatMap fun r =>
            if r.engaged = [] ∨ r.port ≠ q ∨ r.stale = true then []
            else if r.cancelling = true then [sweepEvent .sweepCancelled r.id r.remaining.length none]
            else if s.gate.settings.abortLimit ≤ r.aborts + 1 then
              [sweepEvent .sweepAborted r.id r.remaining.length none]
            else []).foldl (fun Q e => Q.post e s.tick) (s.events q)
        else s.events q) ∧
      u.resetLow = s.resetLow ∧ u.tick = s.tick ∧ u.profiles = s.profiles ∧ u.nextId = s.nextId ∧ u.gate = s.gate ∧
      (∀ q : Port, u.host q = s.host q ∧ u.session q = s.session q ∧ u.standing q = s.standing q ∧
        u.cadence q = s.cadence q)

/-! ## The quiet gate -/

/-- A change of QUIET: the line level follows the pin and the observed state follows the line; OPEN to SHUT aborts the
running round, SHUT to OPEN brings the round-start check, and nothing else is told to the arbiter. -/
def Obligations.QuietLevelChange : Prop :=
  ∀ (s : State) (level : Level), s.resetLow = false →
    let state := if s.gate.settings.enabled = true ∧ level ≠ s.gate.settings.openLevel then GateState.shut
      else GateState.opened
    let moved : State := { s with gate := { s.gate with line := level, observed := state } }
    (s.gate.observed = state → exec (.quietLevelChange level) s = .next moved) ∧
    (s.gate.observed = .shut → state = .opened → exec (.quietLevelChange level) s = .next moved.roundStartCheck) ∧
    (s.gate.observed = .opened → state = .shut → s.round = none → exec (.quietLevelChange level) s = .next moved) ∧
    (∀ round, s.gate.observed = .opened → state = .shut → s.round = some round →
      exec (.quietLevelChange level) s = .next (moved.abortRound round))

/-- SET_GATE: BADARG for bytes that spell no settings, DENIED while the other port holds the gate, and otherwise the
three settings, the holder and the observed state they give, with the abort of a running round where the gate goes SHUT,
the round-start check, and the answer OK with the observed state and the holder. -/
def Obligations.SetGateCommand : Prop :=
  ∀ (s : State) (p : Port) (f : Frame), s.ExecutesOpen p f 0x30 →
    (gateArg f.payload = none → exec (.setGate p) s = .next (s.respond p f.tag .badArg [])) ∧
    (∀ g, gateArg f.payload = some g → s.gate.holder = some p.other →
      exec (.setGate p) s = .next (s.respond p f.tag .denied [])) ∧
    (∀ g, gateArg f.payload = some g → s.gate.holder ≠ some p.other →
      let state := if g.enabled = true ∧ s.gate.line ≠ g.openLevel then GateState.shut else GateState.opened
      let holder := if g.enabled = true then some p else none
      let moved : State := { s with gate := { settings := g, holder := holder, line := s.gate.line, observed := state } }
      let payload := [gateStateByte state, portByte holder]
      (∀ round, s.gate.observed = .opened → state = .shut → s.round = some round →
        exec (.setGate p) s =
          .next ((moved.abortRound round).roundStartCheck.respond p f.tag .ok payload)) ∧
      (s.gate.observed = .shut ∨ state = .opened ∨ s.round = none →
        exec (.setGate p) s = .next (moved.roundStartCheck.respond p f.tag .ok payload)))

/-! ## The time base and the cadence timers -/

/-- A tick: the count rises by one and wraps; a running timer's counter falls by one where it stands above 1; a STOPPED timer
takes no action; nothing else changes. It is the model's choice (log 4) that at counter 1 the tick, which R128 makes the expiry,
stays owed before the timer until CADENCE_EXPIRY takes it, and that ticks already owed are taken with a later one as far as the
counter stays above 0. -/
def Obligations.TickCommand : Prop :=
  ∀ s : State, s.resetLow = false →
    ∃ t : State, exec .tick s = .next t ∧
      t = ({ s with tick := s.tick + 1 }.setCadence .a (t.cadence .a)).setCadence .b (t.cadence .b) ∧
      ∀ p : Port,
        ((s.cadence p).running = false → t.cadence p = s.cadence p) ∧
        ((s.cadence p).running = true → (s.cadence p).owed = 0 → 1 < (s.cadence p).counter →
          t.cadence p = { s.cadence p with counter := (s.cadence p).counter - 1 }) ∧
        ((s.cadence p).running = true → (s.cadence p).owed = 0 → (s.cadence p).counter = 1 →
          t.cadence p = { s.cadence p with owed := 1 }) ∧
        ((s.cadence p).running = true → 1 ≤ (s.cadence p).counter →
          (t.cadence p).counter + (s.cadence p).owed + 1 = (s.cadence p).counter + (t.cadence p).owed ∧
          1 ≤ (t.cadence p).counter ∧ ((t.cadence p).owed = 0 ∨ (t.cadence p).counter = 1))

/-- A running timer at 1 that takes the tick is reloaded from the latch, and the expiry is handed to the sweep queue, which
takes the first of the four cases of R35. That a tick stands before the timer until this row takes it, and that above 1 the
row only lowers the counter, is the model's choice (log 4). -/
def Obligations.CadenceExpiryCommand : Prop :=
  ∀ (s : State) (p : Port), s.resetLow = false → (s.cadence p).running = true → 0 < (s.cadence p).owed →
    (1 < (s.cadence p).counter →
      exec (.cadenceExpiry p) s = .next (s.setCadence p
        { s.cadence p with counter := (s.cadence p).counter - 1, owed := (s.cadence p).owed - 1 })) ∧
    ((s.cadence p).counter = 1 →
      let reloaded := s.setCadence p
        { s.cadence p with counter := (s.cadence p).latch, owed := (s.cadence p).owed - 1 }
      let queued := (s.queue.filter fun r => decide (r.port = p)).length
      (s.standing p = [] → exec (.cadenceExpiry p) s = .next reloaded) ∧
      (s.standing p ≠ [] →
        (∀ (before after : List SweepRequest) (r : SweepRequest), s.queue = before ++ r :: after → r.port = p →
          r.origin = .timer → (∀ x ∈ before, x.port = p → x.origin ≠ .timer) →
          exec (.cadenceExpiry p) s = .next (reloaded.post p (sweepEvent .cadenceSlip r.id queued none))) ∧
        ((∀ x ∈ s.queue, x.port = p → x.origin ≠ .timer) → 3 ≤ queued →
          exec (.cadenceExpiry p) s = .next (reloaded.post p (sweepEvent .cadenceSlip 0 queued none))) ∧
        ((∀ x ∈ s.queue, x.port = p → x.origin ≠ .timer) → queued < 3 →
          let admitted : State :=
            { reloaded with
              queue := s.queue ++ [{ id := s.freeSweepId, port := p, session := (s.session p).number, origin := .timer
                                     remaining := s.standing p, measured := 0, skipped := 0, aborts := 0, engaged := []
                                     cancelling := false, stale := false }]
              nextId := nextSweepId s.freeSweepId }
          exec (.cadenceExpiry p) s = .next admitted.roundStartCheck)))

/-- SET_CADENCE under its four rows: a payload of another length, an action byte that names none of the four, or a period
outside 5–50000 with LOAD or STAGE is BADARG; otherwise the issuing port's timer alone changes, as the table of R130
gives, and the answer carries its state, counter and latch. That each of the four rows executes a frame whose action byte
names none of them is the model's choice (log 6), and so is the count of owed ticks that STOP and RESUME clear (log 4). -/
def Obligations.SetCadenceCommands : Prop :=
  ∀ (s : State) (p : Port) (f : Frame), s.ExecutesOpen p f 0x28 →
    let c := s.cadence p
    let answered := fun d : Cadence => Host.Outcome.next (φ := Fault) (ρ := Refusal)
      ((s.setCadence p d).respond p f.tag .ok ([yesNoByte d.running] ++ numBytes d.counter ++ numBytes d.latch))
    let refused := Host.Outcome.next (φ := Fault) (ρ := Refusal) (s.respond p f.tag .badArg [])
    (∀ n, 5 ≤ n → n ≤ 50000 → f.payload = 1 :: numBytes n →
      exec (.load p) s = answered { c with running := true, counter := n, latch := n }) ∧
    (∀ n, 5 ≤ n → n ≤ 50000 → f.payload = 2 :: numBytes n →
      exec (.stage p) s = answered { c with latch := n }) ∧
    (∀ n, n < 65536 → f.payload = 3 :: numBytes n →
      exec (.stop p) s = answered { c with running := false, owed := 0 }) ∧
    (∀ n, n < 65536 → f.payload = 4 :: numBytes n → c.running = false →
      exec (.resume p) s = answered { c with running := true, counter := c.latch, owed := 0 }) ∧
    (∀ n, n < 65536 → f.payload = 4 :: numBytes n → c.running = true → exec (.resume p) s = answered c) ∧
    (∀ n, n < 65536 → n < 5 ∨ 50000 < n →
      (f.payload = 1 :: numBytes n → exec (.load p) s = refused) ∧
      (f.payload = 2 :: numBytes n → exec (.stage p) s = refused)) ∧
    (∀ a rest, f.payload = a :: rest → rest.length ≠ 2 →
      (a = 1 → exec (.load p) s = refused) ∧ (a = 2 → exec (.stage p) s = refused) ∧
      (a = 3 → exec (.stop p) s = refused) ∧ (a = 4 → exec (.resume p) s = refused)) ∧
    (f.payload = [] ∨ (∃ a rest, f.payload = a :: rest ∧ (a = 0 ∨ 4 < a)) →
      ∀ row ∈ [Instr.load p, .stage p, .stop p, .resume p], exec row s = refused)

/-! ## The sweep queue -/

/-- The id of an admission: the first value from the counter upward, 255 followed by 1, that no queued request holds; it
is found within seven steps. -/
def Obligations.SweepIds : Prop :=
  (∀ s : State, s.ShareInv →
    ∃ i ≤ 6, s.freeSweepId = (s.nextId - 1 + i) % 255 + 1 ∧
      (∀ r ∈ s.queue, r.id ≠ s.freeSweepId) ∧
      ∀ j < i, ∃ r ∈ s.queue, r.id = (s.nextId - 1 + j) % 255 + 1) ∧
  nextSweepId 255 = 1 ∧ (∀ n < 255, nextSweepId n = n + 1)

/-- SET_STANDING: a payload that is no list of at most 32 distinct slots is BADARG, an entry that is FREE is NOTFOUND, an
entry the port does not subscribe to is DENIED; otherwise the port's standing list is replaced and nothing else changes. -/
def Obligations.SetStandingCommand : Prop :=
  ∀ (s : State) (p : Port) (f : Frame), s.ExecutesOpen p f 0x20 →
    (slotListArg f.payload = none → exec (.setStanding p) s = .next (s.respond p f.tag .badArg [])) ∧
    (∀ ks, slotListArg f.payload = some ks →
      ((∃ k ∈ ks, s.slot k = none) → exec (.setStanding p) s = .next (s.respond p f.tag .notFound [])) ∧
      ((∀ k ∈ ks, s.slot k ≠ none) →
        ((∃ k ∈ ks, ∃ r, s.slot k = some r ∧ r.subs.get p = false) →
          exec (.setStanding p) s = .next (s.respond p f.tag .denied [])) ∧
        ((∀ k ∈ ks, ∀ r, s.slot k = some r → r.subs.get p = true) →
          exec (.setStanding p) s = .next ((s.setStanding p ks).respond p f.tag .ok []))))

/-- SWEEP: its refusals in their order, and otherwise a COMMAND request of the list at the tail of the queue, with the id
of R29 in the answer and the round-start check after it. -/
def Obligations.SweepCommand : Prop :=
  ∀ (s : State) (p : Port) (f : Frame), s.ExecutesOpen p f 0x21 →
    (sweepArg f.payload = none → exec (.sweep p) s = .next (s.respond p f.tag .badArg [])) ∧
    (sweepArg f.payload = some .standing → s.standing p = [] →
      exec (.sweep p) s = .next (s.respond p f.tag .badArg [])) ∧
    (∀ ks : List SlotNo, ks ≠ [] →
      (sweepArg f.payload = some (.explicit ks) ∨ (sweepArg f.payload = some .standing ∧ s.standing p = ks)) →
      ((∃ k ∈ ks, s.slot k = none) → exec (.sweep p) s = .next (s.respond p f.tag .notFound [])) ∧
      ((∀ k ∈ ks, s.slot k ≠ none) →
        ((∃ k ∈ ks, ∃ r, s.slot k = some r ∧ r.subs.get p = false) →
          exec (.sweep p) s = .next (s.respond p f.tag .denied [])) ∧
        ((∀ k ∈ ks, ∀ r, s.slot k = some r → r.subs.get p = true) →
          let queued := (s.queue.filter fun r => decide (r.port = p)).length
          (3 ≤ queued → exec (.sweep p) s = .next (s.respond p f.tag .qFull [])) ∧
          (queued < 3 →
            let admitted : State :=
              { s with
                queue := s.queue ++ [{ id := s.freeSweepId, port := p, session := (s.session p).number
                                       origin := .command, remaining := ks, measured := 0, skipped := 0, aborts := 0
                                       engaged := [], cancelling := false, stale := false }]
                nextId := nextSweepId s.freeSweepId }
            exec (.sweep p) s =
              .next (admitted.roundStartCheck.respond p f.tag .ok [byteOf s.freeSweepId])))))

/-- CANCEL, where the queued ids are distinct: an id of 0 is BADARG, an id not queued NOTFOUND, a request of the other
port DENIED; a waiting request leaves with SWEEP_CANCELLED unless it is stale, and an engaged one is marked. -/
def Obligations.CancelCommand : Prop :=
  ∀ (s : State) (p : Port) (f : Frame), s.ExecutesOpen p f 0x22 → (s.queue.map (·.id)).Nodup →
    (cancelArg f.payload = none → exec (.cancel p) s = .next (s.respond p f.tag .badArg [])) ∧
    (∀ id, cancelArg f.payload = some id →
      ((∀ r ∈ s.queue, r.id ≠ id) → exec (.cancel p) s = .next (s.respond p f.tag .notFound [])) ∧
      (∀ r ∈ s.queue, r.id = id →
        (r.port ≠ p → exec (.cancel p) s = .next (s.respond p f.tag .denied [])) ∧
        (r.port = p → r.engaged ≠ [] →
          exec (.cancel p) s = .next
            ({ s with queue := s.queue.map fun x : SweepRequest => if x.id = id then { x with cancelling := true } else x }.respond
              p f.tag .ok [])) ∧
        (r.port = p → r.engaged = [] →
          let left : State := { s with queue := s.queue.filter fun x => decide (x.id ≠ id) }
          exec (.cancel p) s = .next
            ((if r.stale = true then left
              else left.post p (sweepEvent .sweepCancelled id r.remaining.length none)).respond p f.tag .ok []))))

/-! ## Slots -/

/-- DEFINE: BADARG, NOTFREE, NOFREE, or the record of R11 in the named FREE slot or in the lowest FREE one, whose number
the answer carries; nothing else changes. -/
def Obligations.DefineCommand : Prop :=
  ∀ (s : State) (p : Port) (f : Frame), s.ExecutesOpen p f 0x10 →
    let defined := fun (k : SlotNo) (q : Params) => Host.Outcome.next (φ := Fault) (ρ := Refusal)
      ((s.setSlot k (some
        { owner := p, params := q, subs := { a := decide (p = .a), b := decide (p = .b) }
          key := { state := .uncal, baseline := none, confirm := 0, drift := 0, badRun := 0, hold := 0, calSum := 0
                   calCount := 0 }
          last := none, inFlight := false })).respond p f.tag .ok [byteOf k.val])
    (defineArg f.payload = none → exec (.define p) s = .next (s.respond p f.tag .badArg [])) ∧
    (∀ k q, defineArg f.payload = some (.named k, q) →
      (s.slot k ≠ none → exec (.define p) s = .next (s.respond p f.tag .notFree [])) ∧
      (s.slot k = none → exec (.define p) s = defined k q)) ∧
    (∀ q, defineArg f.payload = some (.any, q) →
      ((∀ k, s.slot k ≠ none) → exec (.define p) s = .next (s.respond p f.tag .noFree [])) ∧
      (∀ k, s.slot k = none → (∀ k' < k, s.slot k' ≠ none) → exec (.define p) s = defined k q))

/-- MODIFY: BADARG, NOTFOUND, DENIED, INFLIGHT in that order; otherwise its effect by its class: no change; detection only, which keeps calibration and settles a pending decision;
measurement, which posts a forced RELEASE for a pressed key and restarts the key machine. Where it takes shared from yes
to no, a subscribed non-owner leaves the subscriber set and the removal cascade runs for it, last. -/
def Obligations.ModifyCommand : Prop :=
  ∀ (s : State) (p : Port) (f : Frame), s.ExecutesOpen p f 0x11 →
    (modifyArg f.payload = none → exec (.modify p) s = .next (s.respond p f.tag .badArg [])) ∧
    (∀ k q, modifyArg f.payload = some (k, q) →
      (s.slot k = none → exec (.modify p) s = .next (s.respond p f.tag .notFound [])) ∧
      (∀ r, s.slot k = some r →
        (r.owner ≠ p → exec (.modify p) s = .next (s.respond p f.tag .denied [])) ∧
        (r.owner = p → r.inFlight = true → exec (.modify p) s = .next (s.respond p f.tag .inFlight [])))) ∧
    (∀ k q r, modifyArg f.payload = some (k, q) → s.slot k = some r → r.owner = p → r.inFlight = false →
      let finish := fun (u : State) (r' : SlotRecord) (cls : Byte) => Host.Outcome.next (φ := Fault) (ρ := Refusal)
        ((if r.params.shared = true ∧ q.shared = false ∧ r.subs.get p.other = true then
            (u.setSlot k (some { r' with subs := { a := decide (p = .a), b := decide (p = .b) } })).cascade k r
              fun x => decide (x = p.other)
          else u.setSlot k (some r')).respond p f.tag .ok [cls])
      let measures := q.lane ≠ r.params.lane ∨ q.pads ≠ r.params.pads ∨ q.profile ≠ r.params.profile ∨
        q.limit ≠ r.params.limit
      (q = r.params → exec (.modify p) s = .next (s.respond p f.tag .ok [0])) ∧
      (q ≠ r.params → ¬ measures →
        exec (.modify p) s = finish s
          { r with
            params := q
            key := { r.key with
              state := match r.key.state with
                | .arming => .idle
                | .lifting => .held
                | st => st
              confirm := if r.key.state = .arming ∨ r.key.state = .lifting then 0 else r.key.confirm
              drift := if q.drift = r.params.drift then r.key.drift else 0
              hold := if q.hold ≠ 0 ∧ q.hold ≤ r.key.hold then q.hold - 1 else r.key.hold } } 1) ∧
      (measures →
        let fresh : SlotRecord :=
          { r with
            params := q
            key := { state := .uncal, baseline := none, confirm := 0, drift := 0, badRun := 0, hold := 0, calSum := 0
                     calCount := 0 }
            last := none }
        (r.key.state ≠ .held → r.key.state ≠ .lifting → exec (.modify p) s = finish s fresh 2) ∧
        (∀ b l, r.key.state = .held ∨ r.key.state = .lifting → r.key.baseline = some b → r.last = some l →
          exec (.modify p) s =
            finish (s.postSubs r.subs (keyEvent k .release ((b : Int) - l.reading.value) true false)) fresh 2)))

/-- DELETE: BADARG, NOTFOUND, DENIED, INFLIGHT in that order; otherwise the removal cascade for both ports and then a FREE
record. That the cascade reaches the stale requests of a port whose teardown came first, which R17, R20 and R28 say and R172
does not, is the model's choice (log 16). -/
def Obligations.DeleteCommand : Prop :=
  ∀ (s : State) (p : Port) (f : Frame), s.ExecutesOpen p f 0x12 →
    (slotArg f.payload = none → exec (.delete p) s = .next (s.respond p f.tag .badArg [])) ∧
    (∀ k, slotArg f.payload = some k →
      (s.slot k = none → exec (.delete p) s = .next (s.respond p f.tag .notFound [])) ∧
      (∀ r, s.slot k = some r →
        (r.owner ≠ p → exec (.delete p) s = .next (s.respond p f.tag .denied [])) ∧
        (r.owner = p → r.inFlight = true → exec (.delete p) s = .next (s.respond p f.tag .inFlight [])) ∧
        (r.owner = p → r.inFlight = false →
          exec (.delete p) s =
            .next (((s.cascade k r fun _ => true).setSlot k none).respond p f.tag .ok []))))

/-- SUBSCRIBE and UNSUBSCRIBE, by the port's relation to the slot. -/
def Obligations.SubscriptionCommands : Prop :=
  ∀ (s : State) (p : Port) (f : Frame),
    (s.ExecutesOpen p f 0x13 →
      (slotArg f.payload = none → exec (.subscribe p) s = .next (s.respond p f.tag .badArg [])) ∧
      (∀ k, slotArg f.payload = some k →
        (s.slot k = none → exec (.subscribe p) s = .next (s.respond p f.tag .notFound [])) ∧
        (∀ r, s.slot k = some r →
          (r.subs.get p = true → exec (.subscribe p) s = .next (s.respond p f.tag .ok [])) ∧
          (r.subs.get p = false → r.params.shared = false →
            exec (.subscribe p) s = .next (s.respond p f.tag .denied [])) ∧
          (r.subs.get p = false → r.params.shared = true →
            exec (.subscribe p) s =
              .next ((s.setSlot k (some { r with subs := r.subs.set p true })).respond p f.tag .ok []))))) ∧
    (s.ExecutesOpen p f 0x14 →
      (slotArg f.payload = none → exec (.unsubscribe p) s = .next (s.respond p f.tag .badArg [])) ∧
      (∀ k, slotArg f.payload = some k →
        (s.slot k = none → exec (.unsubscribe p) s = .next (s.respond p f.tag .notFound [])) ∧
        (∀ r, s.slot k = some r →
          (r.owner = p → exec (.unsubscribe p) s = .next (s.respond p f.tag .denied [])) ∧
          (r.owner ≠ p → r.subs.get p = false → exec (.unsubscribe p) s = .next (s.respond p f.tag .ok [])) ∧
          (r.owner ≠ p → r.subs.get p = true → r.inFlight = true →
            exec (.unsubscribe p) s = .next (s.respond p f.tag .inFlight [])) ∧
          (r.owner ≠ p → r.subs.get p = true → r.inFlight = false →
            exec (.unsubscribe p) s =
              .next (((s.setSlot k (some { r with subs := r.subs.set p false })).cascade k r
                fun x => decide (x = p)).respond p f.tag .ok [])))))

/-- The removal cascade: the slot leaves the standing list of each losing port and, in queue order, every request of a
losing port, which completes with SWEEP_DONE where that empties it; then a subscribed non-owner among the losing ports is
posted SLOT_GONE; nothing else changes. That a stale request of a losing port is stripped like any other is the model's
choice between R20 and R172 (log 16). -/
def Obligations.RemovalCascade : Prop :=
  ∀ (s : State) (k : SlotNo) (r : SlotRecord) (losing : Port → Bool),
    let t := s.cascade k r losing
    (∀ q : Port, t.standing q =
      if losing q = true then (s.standing q).filter fun x => decide (x ≠ k) else s.standing q) ∧
    t.queue = s.queue.filterMap (fun x : SweepRequest =>
      if losing x.port = true ∧ k ∈ x.remaining then
        let rest := x.remaining.filter fun y => decide (y ≠ k)
        if rest = [] then none else some { x with remaining := rest, skipped := x.skipped + 1 }
      else some x) ∧
    (∀ q : Port, t.events q =
      if (s.session q).isOpen = true then
        ((s.queue.flatMap fun x =>
            if losing x.port = true ∧ k ∈ x.remaining ∧ (∀ y ∈ x.remaining, y = k) ∧ x.port = q ∧ x.stale = false then
              [sweepEvent .sweepDone x.id x.measured (some (x.skipped + 1))]
            else []) ++
         (if losing q = true ∧ q ≠ r.owner ∧ r.subs.get q = true then
            [keyEvent k .slotGone 0 false false]
          else [])).foldl (fun Q e => Q.post e s.tick) (s.events q)
      else s.events q) ∧
    t.resetLow = s.resetLow ∧ t.tick = s.tick ∧ t.slots = s.slots ∧ t.profiles = s.profiles ∧ t.nextId = s.nextId ∧
    t.round = s.round ∧ t.lastLeader = s.lastLeader ∧ t.lanes = s.lanes ∧ t.gate = s.gate ∧
    (∀ q : Port, t.host q = s.host q ∧ t.session q = s.session q ∧ t.cadence q = s.cadence q)

/-- READ_SLOT: BADARG, NOTFOUND, or the 29-byte snapshot, each byte at its offset; it changes nothing but the port's
answer. -/
def Obligations.ReadSlotCommand : Prop :=
  (∀ (s : State) (p : Port) (f : Frame), s.ExecutesOpen p f 0x15 →
    (slotArg f.payload = none → exec (.readSlot p) s = .next (s.respond p f.tag .badArg [])) ∧
    (∀ k, slotArg f.payload = some k →
      (s.slot k = none → exec (.readSlot p) s = .next (s.respond p f.tag .notFound [])) ∧
      (∀ r, s.slot k = some r → exec (.readSlot p) s = .next (s.respond p f.tag .ok (snapshotBytes k r))))) ∧
  (∀ (k : SlotNo) (r : SlotRecord), (snapshotBytes k r).length = 29 ∧
    ∃ subs options flags : Byte,
      snapshotBytes k r =
        [byteOf k.val, if r.owner = .a then 0 else 1, subs, byteOf r.params.lane.val, r.params.pads.setWidth 8,
         byteOf r.params.profile.val] ++
        numBytes r.params.limit ++ numBytes r.params.touch ++ numBytes r.params.release ++
        [byteOf r.params.debounce, byteOf r.params.drift, byteOf r.params.hold, options, keyStateByte r.key.state] ++
        (match r.key.baseline with
          | some b => numBytes b
          | none => [0, 0]) ++
        [byteOf r.key.confirm, byteOf r.key.drift, byteOf r.key.badRun, byteOf r.key.hold, byteOf r.key.calCount] ++
        (match r.last with
          | some l => numBytes l.reading.value ++ [flags] ++ wordBytes l.tick
          | none => [0, 0, 0, 0, 0]) ∧
      subs.getLsbD 0 = r.subs.get .a ∧ subs.getLsbD 1 = r.subs.get .b ∧ subs.toNat < 4 ∧
      options.getLsbD 0 = r.params.shared ∧ options.getLsbD 1 = r.params.stream ∧ options.getLsbD 2 = r.inFlight ∧
      options.toNat < 8 ∧
      (∀ l, r.last = some l →
        flags.getLsbD 0 = l.reading.sat ∧ flags.getLsbD 1 = l.reading.low ∧ flags.toNat < 4))

/-- RECALIBRATE: BADARG, NOTFOUND, DENIED for a port that does not subscribe; otherwise a forced RELEASE for a pressed key,
and the key machine restarted, the parameters, the subscribers and the last reading kept. -/
def Obligations.RecalibrateCommand : Prop :=
  ∀ (s : State) (p : Port) (f : Frame), s.ExecutesOpen p f 0x16 →
    (slotArg f.payload = none → exec (.recalibrate p) s = .next (s.respond p f.tag .badArg [])) ∧
    (∀ k, slotArg f.payload = some k →
      (s.slot k = none → exec (.recalibrate p) s = .next (s.respond p f.tag .notFound [])) ∧
      (∀ r, s.slot k = some r →
        let restarted : SlotRecord :=
          { r with key := { state := .uncal, baseline := none, confirm := 0, drift := 0, badRun := 0, hold := 0
                            calSum := 0, calCount := 0 } }
        (r.subs.get p = false → exec (.recalibrate p) s = .next (s.respond p f.tag .denied [])) ∧
        (r.subs.get p = true → r.key.state ≠ .held → r.key.state ≠ .lifting →
          exec (.recalibrate p) s = .next ((s.setSlot k (some restarted)).respond p f.tag .ok [])) ∧
        (∀ b l, r.subs.get p = true → r.key.state = .held ∨ r.key.state = .lifting → r.key.baseline = some b →
          r.last = some l →
          exec (.recalibrate p) s =
            .next (((s.postSubs r.subs (keyEvent k .release ((b : Int) - l.reading.value) true false)).setSlot k
              (some restarted)).respond p f.tag .ok []))))

/-- SET_PROFILE: BADARG, DENIED while a slot of the other port names the profile, or the two lengths written, with no lane
and no slot touched. -/
def Obligations.SetProfileCommand : Prop :=
  ∀ (s : State) (p : Port) (f : Frame), s.ExecutesOpen p f 0x18 →
    (setProfileArg f.payload = none → exec (.setProfile p) s = .next (s.respond p f.tag .badArg [])) ∧
    (∀ i pf, setProfileArg f.payload = some (i, pf) →
      ((∃ k r, s.slot k = some r ∧ r.owner = p.other ∧ r.params.profile = i) →
        exec (.setProfile p) s = .next (s.respond p f.tag .denied [])) ∧
      ((∀ k r, s.slot k = some r → r.owner = p.other → r.params.profile ≠ i) →
        exec (.setProfile p) s =
          .next ({ s with profiles := s.profiles.set i.val pf i.isLt }.respond p f.tag .ok [])))

/-! ## Key tracking -/

/-- A good reading in UNCAL: it is summed, and the fourth ends calibration with the baseline of the sum divided by 4 and
CAL_DONE. -/
def Obligations.CalibrationReading : Prop :=
  ∀ (q : Params) (k : KeyFields) (rd : Reading), k.state = .uncal → rd.sat = false → rd.low = false →
    (k.calCount < 3 →
      takeReading q k rd = ({ k with badRun := 0, calSum := k.calSum + rd.value, calCount := k.calCount + 1 }, none)) ∧
    (3 ≤ k.calCount →
      takeReading q k rd =
        ({ state := .idle, baseline := some ((k.calSum + rd.value) / 4), confirm := 0, drift := 0, badRun := 0, hold := 0
           calSum := 0, calCount := 0 },
         some { kind := .calDone, value := ((k.calSum + rd.value) / 4 : Nat), forced := false, washeld := false }))

/-- A good reading in IDLE: a press begins, or is posted at once with a debounce of 1; else reverse rebaseline; else one
more reading toward a drift step of one count. A good reading in ARMING: one more confirming reading, the one that
reaches the debounce posting PRESS; or the end of the press attempt, which leaves the baseline untouched. -/
def Obligations.IdleAndArmingReading : Prop :=
  ∀ (q : Params) (k : KeyFields) (rd : Reading) (b : Nat), k.baseline = some b → rd.sat = false → rd.low = false →
    (k.state = .idle → rd.value + q.touch ≤ b →
      (q.debounce = 1 → takeReading q k rd =
        ({ k with state := .held, confirm := 0, hold := 0, drift := 0, badRun := 0 },
         some { kind := .press, value := (b : Int) - rd.value, forced := false, washeld := false })) ∧
      (q.debounce ≠ 1 → takeReading q k rd =
        ({ k with state := .arming, confirm := 1, drift := 0, badRun := 0 }, none))) ∧
    (k.state = .idle → b < rd.value + q.touch → b + q.touch < rd.value →
      takeReading q k rd = ({ k with baseline := some rd.value, drift := 0, badRun := 0 }, none)) ∧
    (k.state = .idle → b < rd.value + q.touch → rd.value ≤ b + q.touch →
      (q.drift = 0 → takeReading q k rd = ({ k with badRun := 0 }, none)) ∧
      (q.drift ≠ 0 → k.drift + 1 < q.drift →
        takeReading q k rd = ({ k with drift := k.drift + 1, badRun := 0 }, none)) ∧
      (q.drift ≠ 0 → q.drift ≤ k.drift + 1 →
        takeReading q k rd =
          ({ k with
             baseline := some (if b < rd.value then b + 1 else if rd.value < b then b - 1 else b)
             drift := 0
             badRun := 0 }, none))) ∧
    (k.state = .arming → rd.value + q.touch ≤ b → k.confirm + 1 ≠ q.debounce →
      takeReading q k rd = ({ k with confirm := k.confirm + 1, badRun := 0 }, none)) ∧
    (k.state = .arming → rd.value + q.touch ≤ b → k.confirm + 1 = q.debounce →
      takeReading q k rd =
        ({ k with state := .held, confirm := 0, hold := 0, badRun := 0 },
         some { kind := .press, value := (b : Int) - rd.value, forced := false, washeld := false })) ∧
    (k.state = .arming → b < rd.value + q.touch →
      takeReading q k rd = ({ k with state := .idle, confirm := 0, drift := 0, badRun := 0 }, none))

/-- A good reading in HELD or LIFTING: the hold count rises to at most 255; at a hold limit that is not 0 the key is
released by force and the reading becomes the baseline; else the release threshold decides, over the debounce. -/
def Obligations.HeldAndLiftingReading : Prop :=
  ∀ (q : Params) (k : KeyFields) (rd : Reading) (b : Nat), k.state = .held ∨ k.state = .lifting → k.baseline = some b →
    rd.sat = false → rd.low = false →
    let hold := min 255 (k.hold + 1)
    let released : KeyFields := { k with state := .idle, confirm := 0, hold := 0, drift := 0, badRun := 0 }
    let released? : Option KeyEvent :=
      some { kind := .release, value := (b : Int) - rd.value, forced := false, washeld := false }
    (q.hold ≠ 0 → hold = q.hold →
      takeReading q k rd =
        ({ released with baseline := some rd.value },
         some { kind := .release, value := (b : Int) - rd.value, forced := true, washeld := false })) ∧
    (q.hold = 0 ∨ hold ≠ q.hold →
      (rd.value + q.release ≤ b → k.state = .held → takeReading q k rd = ({ k with hold := hold, badRun := 0 }, none)) ∧
      (rd.value + q.release ≤ b → k.state = .lifting →
        takeReading q k rd = ({ k with state := .held, confirm := 0, hold := hold, badRun := 0 }, none)) ∧
      (b < rd.value + q.release → k.state = .held → q.debounce = 1 → takeReading q k rd = (released, released?)) ∧
      (b < rd.value + q.release → k.state = .held → q.debounce ≠ 1 →
        takeReading q k rd = ({ k with state := .lifting, confirm := 1, hold := hold, badRun := 0 }, none)) ∧
      (b < rd.value + q.release → k.state = .lifting → k.confirm + 1 = q.debounce →
        takeReading q k rd = (released, released?)) ∧
      (b < rd.value + q.release → k.state = .lifting → k.confirm + 1 ≠ q.debounce →
        takeReading q k rd = ({ k with confirm := k.confirm + 1, hold := hold, badRun := 0 }, none)))

/-- Bad readings and FAULT: the third in a row brings FAULT with WASHELD for a pressed key, earlier ones only count; in
FAULT no reading changes the state, and the bad-run count follows the readings up to 3. A bad reading changes no baseline. -/
def Obligations.BadReadingsAndFault : Prop :=
  ∀ (q : Params) (k : KeyFields) (rd : Reading),
    ((rd.sat = true ∨ rd.low = true) → k.state ≠ .fault →
      (k.badRun < 2 → takeReading q k rd = ({ k with badRun := k.badRun + 1 }, none)) ∧
      (2 ≤ k.badRun → takeReading q k rd =
        ({ state := .fault, baseline := k.baseline, confirm := 0, drift := 0, badRun := 3, hold := 0, calSum := 0
           calCount := 0 },
         some { kind := .fault, value := rd.value, forced := false
                washeld := decide (k.state = .held ∨ k.state = .lifting) }))) ∧
    ((rd.sat = true ∨ rd.low = true) → k.state = .fault →
      takeReading q k rd = ({ k with badRun := min 3 (k.badRun + 1) }, none)) ∧
    (rd.sat = false → rd.low = false → k.state = .fault → takeReading q k rd = ({ k with badRun := 0 }, none))

/-! ## Event queues and attention -/

/-- R143, R144, R145. An event posted to a CLOSED port is discarded; to an OPEN port with room it is stored at the tail
with the next sequence number and the tick, undelivered, and the attention line is low from then on; to an OPEN port with
24 records it is discarded and the tail record alone is marked GAP. The rest of the hub, the other port's queue and line
among it, is not touched. The line is low exactly while the session is OPEN and the queue holds an undelivered record. -/
def Obligations.PostingAnEvent : Prop :=
  ∀ (s : State) (p : Port) (e : Event),
    (s.attentionLow p = true ↔ (s.session p).isOpen = true ∧ ∃ r ∈ (s.events p).records, r.delivered = false) ∧
    ((s.session p).isOpen = false → s.post p e = s ∧ s.attentionLow p = false) ∧
    ((s.session p).isOpen = true → (s.events p).records.length < 24 →
      s.post p e = s.setEvents p
        { records := (s.events p).records ++
            [{ seq := (s.events p).nextSeq, event := e, gap := false, time := s.tick, delivered := false }]
          nextSeq := (s.events p).nextSeq + 1 } ∧
      (s.post p e).attentionLow p = true) ∧
    (∀ (held : List EventRecord) (newest : EventRecord), (s.session p).isOpen = true →
      (s.events p).records = held ++ [newest] → 24 ≤ (held ++ [newest]).length →
      s.post p e = s.setEvents p
        { records := held ++ [{ newest with gap := true }], nextSeq := (s.events p).nextSeq } ∧
      (s.post p e).attentionLow p = s.attentionLow p) ∧
    (s.post p e).events p.other = s.events p.other ∧ (s.post p e).attentionLow p.other = s.attentionLow p.other

/-- FETCH: a count outside 1–8 is BADARG; otherwise the first records up to the count are marked delivered, and the answer
carries their number, the records held, those still undelivered, and the records taken, 12 bytes each. The attention line is
low after it exactly if a record behind them is undelivered. -/
def Obligations.FetchCommand : Prop :=
  ∀ (s : State) (p : Port) (f : Frame), s.ExecutesOpen p f 0x38 →
    ((∀ n : Byte, f.payload = [n] → n = 0 ∨ 8 < n) → exec (.fetch p) s = .next (s.respond p f.tag .badArg [])) ∧
    (∀ n : Byte, f.payload = [n] → 1 ≤ n → n ≤ 8 →
      let before := (s.events p).records
      let taken := before.take n.toNat
      let after := taken.map (fun r : EventRecord => { r with delivered := true }) ++ before.drop n.toNat
      let payload := [byteOf taken.length, byteOf before.length,
        byteOf (after.filter fun r => !r.delivered).length] ++ taken.flatMap recordBytes
      let t := (s.setEvents p { records := after, nextSeq := (s.events p).nextSeq }).respond p f.tag .ok payload
      exec (.fetch p) s = .next t ∧
      payload.length = 3 + 12 * taken.length ∧
      (t.attentionLow p = true ↔ ∃ r ∈ before.drop n.toNat, r.delivered = false))

/-- ACK: a payload of another length than 2 is BADARG; with no delivered record of that number it is BADSEQ and removes
nothing; otherwise it removes every record through that one, and where the delivered records are a prefix the attention
line does not move. -/
def Obligations.AckCommand : Prop :=
  ∀ (s : State) (p : Port) (f : Frame), s.ExecutesOpen p f 0x39 →
    (f.payload.length ≠ 2 → exec (.ack p) s = .next (s.respond p f.tag .badArg [])) ∧
    (∀ seq : Word, f.payload = wordBytes seq →
      ((∀ r ∈ (s.events p).records, r.seq = seq → r.delivered = false) →
        exec (.ack p) s = .next (s.respond p f.tag .badSeq [])) ∧
      (∀ (ahead behind : List EventRecord) (r : EventRecord), (s.events p).records = ahead ++ r :: behind →
        r.seq = seq → r.delivered = true → (∀ x ∈ ahead, x.seq ≠ seq) →
        let t := s.setEvents p { records := behind, nextSeq := (s.events p).nextSeq }
        exec (.ack p) s =
          .next (t.respond p f.tag .ok [byteOf (ahead.length + 1), byteOf behind.length]) ∧
        ((s.events p).deliveredPrefix → t.attentionLow p = s.attentionLow p)))

/-! ## Sessions -/

/-- OPEN and CLOSE: OPEN gives the port the next number of its own counter, after a teardown where its session was OPEN;
CLOSE tears the session down and leaves number 0; each answer carries the number that stands after it. -/
def Obligations.OpenAndCloseCommands : Prop :=
  ∀ (s : State) (p : Port) (f : Frame),
    let next := if (s.session p).counter < 255 then (s.session p).counter + 1 else 1
    let opened := fun u : State => Host.Outcome.next (φ := Fault) (ρ := Refusal)
      ((u.setSession p { isOpen := true, number := next, counter := next }).respond p f.tag .ok
        [0x23, 0x40, 0x01, 32, 4, 5, 4, 3, 24, 8, 60, 120])
    (s.Executes p f 0x01 → (s.session p).isOpen = false → exec (.openSession p) s = opened s) ∧
    (s.Executes p f 0x01 → (s.session p).isOpen = true → exec (.openSession p) s = opened (s.teardown p)) ∧
    (s.ExecutesOpen p f 0x02 →
      exec (.closeSession p) s =
        .next (((s.teardown p).setSession p
          { isOpen := false, number := 0, counter := (s.session p).counter }).respond p f.tag .ok []))

/-- Teardown: waiting requests of the port leave, engaged ones are marked cancelling and stale; its standing list is
emptied and its timer stopped; it leaves the subscriber sets of the other port's slots; its event queue is emptied; it
gives up the gate; no event is posted to either port, and nothing else changes. -/
def Obligations.Teardown : Prop :=
  ∀ (s : State) (p : Port),
    let t := s.teardown p
    t.queue = s.queue.filterMap (fun r : SweepRequest =>
      if r.port = p then (if r.engaged = [] then none else some { r with cancelling := true, stale := true })
      else some r) ∧
    t.standing p = [] ∧
    (t.cadence p).running = false ∧ (t.cadence p).counter = (s.cadence p).counter ∧
    (t.cadence p).latch = (s.cadence p).latch ∧
    (∀ k : SlotNo, t.slot k =
      (s.slot k).map fun r : SlotRecord => if r.owner = p then r else { r with subs := r.subs.set p false }) ∧
    t.events p = { records := [], nextSeq := 0 } ∧ t.attentionLow p = false ∧
    t.gate = { s.gate with holder := if s.gate.holder = some p then none else s.gate.holder } ∧
    t.standing p.other = s.standing p.other ∧ t.cadence p.other = s.cadence p.other ∧
    t.events p.other = s.events p.other ∧
    (∀ q : Port, t.host q = s.host q ∧ t.session q = s.session q) ∧
    t.resetLow = s.resetLow ∧ t.tick = s.tick ∧ t.profiles = s.profiles ∧ t.nextId = s.nextId ∧ t.round = s.round ∧
    t.lastLeader = s.lastLeader ∧ t.lanes = s.lanes

/-! ## Host ports -/

/-- The falling edge of xCS#: the marker is chosen from the port's state and the first bit of what it sends is driven;
and the bytes sent under each marker. -/
def Obligations.TransactionStart : Prop :=
  ∀ (s : State) (p : Port), s.resetLow = false → (s.host p).csLow = false →
    let h := s.host p
    let begun := fun (m : Marker) => Host.Outcome.next (φ := Fault) (ρ := Refusal)
      (s.setHost p { h with
        csLow := true
        transaction := some { marker := m, received := [], bits := [] }
        sdo := some ((h.byteSent m 0).getMsbD 0) })
    (h.work ≠ .none → exec (.transactionStart p) s = begun .busy ∧
      ∀ n, h.byteSent .busy n = if n = 0 then 0x3C else 0xFF) ∧
    (∀ r, h.work = .none → h.buffer = some r → exec (.transactionStart p) s = begun .response ∧
      ∀ n, h.byteSent .response n = (responseBytes r.response).getD n 0xFF) ∧
    (h.work = .none → h.buffer = none → exec (.transactionStart p) s = begun .none ∧
      ∀ n, h.byteSent .none n = if n = 0 then 0x00 else 0xFF)

/-- The clock edges of a transaction: a rising edge samples a data bit, the eighth completing a byte, most significant bit
first; a falling edge drives the next bit of what the port sends. Under a low xCS# with no transaction running, which a
release of RESET# alone brings, xSDO stays driven, and that a falling edge may change its level, which R174 leaves open, is
the model's choice (log 15). -/
def Obligations.SerialClockEdges : Prop :=
  ∀ (s : State) (p : Port), s.resetLow = false →
    (∀ t, (s.host p).transaction = some t →
      (∀ sdi, t.bits.length < 7 →
        exec (.serialClockEdge p (.rising sdi)) s =
          .next (s.setHost p { s.host p with transaction := some { t with bits := t.bits ++ [sdi] } })) ∧
      (∀ (b : Byte), t.bits = (bitsOf b).take 7 →
        exec (.serialClockEdge p (.rising (b.getMsbD 7))) s =
          .next (s.setHost p
            { s.host p with transaction := some { t with received := t.received ++ [b], bits := [] } })) ∧
      (let n := 8 * t.received.length + t.bits.length
       exec (.serialClockEdge p .falling) s =
         .next (s.setHost p
           { s.host p with sdo := some (((s.host p).byteSent t.marker (n / 8)).getMsbD (n % 8)) }))) ∧
    ((s.host p).transaction = none → (s.host p).csLow = true →
      exec (.serialClockEdge p .falling) s =
        .next (s.setHost p { s.host p with
          sdo := some (Config.openSdo (decide (p = .b)) (s.host p).draws)
          draws := (s.host p).draws + 1 }))

/-- The rising edge of xCS#: a response clocked out whole leaves the buffer and, unless it answers RESEND, becomes the
last-response copy; a complete frame is taken unless the marker was BUSY or a response was cut short; anything else
received is discarded. With no transaction running the edge tri-states xSDO and does nothing else. -/
def Obligations.TransactionEnd : Prop :=
  ∀ (s : State) (p : Port), s.resetLow = false → (s.host p).csLow = true →
    let h := s.host p
    let ended := fun (work : Work) (buffer : Option Outgoing) (copy : Option Response) =>
      Host.Outcome.next (φ := Fault) (ρ := Refusal) (s.setHost p
        { h with csLow := false, transaction := none, work := work, buffer := buffer, lastResponse := copy, sdo := none })
    (h.transaction = none → exec (.transactionEnd p) s = ended h.work h.buffer h.lastResponse) ∧
    (∀ t, h.transaction = some t →
      let workAfter := match readFrame t.received with
        | some f => Work.taken f
        | none => h.work
      (t.marker = .busy → exec (.transactionEnd p) s = ended h.work h.buffer h.lastResponse) ∧
      (t.marker = .none → exec (.transactionEnd p) s = ended workAfter h.buffer h.lastResponse) ∧
      (∀ r, t.marker = .response → h.buffer = some r →
        (t.received.length < (responseBytes r.response).length →
          exec (.transactionEnd p) s = ended h.work h.buffer h.lastResponse) ∧
        ((responseBytes r.response).length ≤ t.received.length →
          exec (.transactionEnd p) s =
            ended workAfter none (if r.ofResend = true then h.lastResponse else some r.response))))

/-- The bytes of a transaction of which a frame is read: a NOP, a malformed and an incomplete frame give none. -/
def Obligations.FrameReading : Prop :=
  (∀ (f : Frame) (fill : List Byte), f.code ≠ 0 → f.payload.length ≤ 60 → readFrame (frameBytes f ++ fill) = some f) ∧
  (∀ bs : List Byte, bs.length < 3 → readFrame bs = none) ∧
  (∀ (tag len : Byte) (rest : List Byte), readFrame (0 :: tag :: len :: rest) = none) ∧
  (∀ (code tag len : Byte) (rest : List Byte), 60 < len.toNat → readFrame (code :: tag :: len :: rest) = none) ∧
  (∀ (code tag len : Byte) (rest : List Byte), rest.length < len.toNat + 1 →
    readFrame (code :: tag :: len :: rest) = none)

/-- An answer changes one thing: the port's built response, with the session number that stands after the action. Its
placement changes two: it stands in the buffer, and the executing flag is clear. -/
def Obligations.AnswerAndPlacement : Prop :=
  (∀ (s : State) (p : Port) (tag : Byte) (st : Status) (payload : List Byte),
    s.respond p tag st payload = s.setHost p { s.host p with
      work := .answered
        { response := { tag := tag, status := st, session := (s.session p).number, payload := payload }
          ofResend := false } }) ∧
  ∀ (s : State) (p : Port) (r : Outgoing), s.resetLow = false → (s.host p).work = .answered r →
    exec (.responsePlacement p) s = .next (s.setHost p { s.host p with work := .none, buffer := some r })

/-- Checks 1 to 3, before every other: a wrong CRC is BADFRAME under every row; a code that is none of the nineteen is
UNKNOWN; every command but OPEN, STATUS and RESEND on a CLOSED port is NOSESSION, whatever its payload. That the BADFRAME
answer to a frame of RESEND's code counts as no response to RESEND is the model's choice (log 5), and so is that a
SET_CADENCE frame which names no action is under every one of the four rows (log 6). -/
def Obligations.FirstThreeChecks : Prop :=
  ∀ (s : State) (p : Port) (f : Frame), s.resetLow = false → (s.host p).work = .taken f →
    let unlisted := f.code ∉ ([0x01, 0x02, 0x03, 0x04, 0x10, 0x11, 0x12, 0x13, 0x14, 0x15, 0x16, 0x18, 0x20, 0x21,
      0x22, 0x28, 0x30, 0x38, 0x39] : List Byte)
    (f.crcOk = false →
      (∀ row ∈ sessionRows p ++ eitherStateRows p, f.code = row.2 →
        exec row.1 s = .next (s.respond p f.tag .badFrame [])) ∧
      (∀ row ∈ cadenceRows p, f.code = 0x28 → f.cadenceAction = some row.2 ∨ f.cadenceAction = none →
        exec row.1 s = .next (s.respond p f.tag .badFrame [])) ∧
      (unlisted → exec (.unknownCode p) s = .next (s.respond p f.tag .badFrame []))) ∧
    (f.crcOk = true → unlisted → exec (.unknownCode p) s = .next (s.respond p f.tag .unknown [])) ∧
    (f.crcOk = true → (s.session p).isOpen = false →
      (∀ row ∈ sessionRows p, f.code = row.2 → exec row.1 s = .next (s.respond p f.tag .noSession [])) ∧
      (∀ row ∈ cadenceRows p, f.code = 0x28 → f.cadenceAction = some row.2 ∨ f.cadenceAction = none →
        exec row.1 s = .next (s.respond p f.tag .noSession [])))

/-- STATUS: it changes nothing but the port's answer, in either session state; its payload has 41 bytes and 7 for each
queued request, with the port blocks of 14 bytes and the request entries at their offsets, and the number of DEFINED
slots among its fixed bytes. -/
def Obligations.StatusCommand : Prop :=
  ∀ (s : State) (p : Port) (f : Frame), s.Executes p f 0x03 →
    exec (.status p) s = .next (s.respond p f.tag .ok s.statusPayload) ∧
    s.statusPayload.length = 41 + 7 * s.queue.length ∧
    s.definedCount = (Finset.univ.filter fun k : SlotNo => s.slot k ≠ none).card ∧
    s.statusPayload.take 12 = wordBytes s.tick ++
      [yesNoByte s.round.isSome, portByte s.lastLeader, yesNoByte s.gate.settings.enabled,
       levelByte s.gate.settings.openLevel, byteOf s.gate.settings.abortLimit, portByte s.gate.holder,
       levelByte s.gate.line, gateStateByte s.gate.observed, byteOf s.definedCount, byteOf s.nextId] ∧
    (s.statusPayload.drop 12).take 14 = s.portBlock .a ∧
    (s.statusPayload.drop 26).take 14 = s.portBlock .b ∧
    s.statusPayload.drop 40 = byteOf s.queue.length :: s.queue.flatMap requestEntry ∧
    ∀ q : Port, s.portBlock q =
      [yesNoByte (s.session q).isOpen, byteOf (s.session q).number, byteOf (s.session q).counter,
       byteOf (s.standing q).length, yesNoByte (s.cadence q).running] ++
      numBytes (s.cadence q).counter ++ numBytes (s.cadence q).latch ++
      [byteOf (s.queue.filter fun r => decide (r.port = q)).length, byteOf (s.events q).records.length,
       byteOf ((s.events q).records.filter (·.delivered)).length] ++
      wordBytes (s.events q).nextSeq

/-- RESEND: with a last-response copy the copy under RESEND's own tag, else NOTFOUND; it changes nothing but the port's
answer, which will not replace the copy. -/
def Obligations.ResendCommand : Prop :=
  ∀ (s : State) (p : Port) (f : Frame), s.Executes p f 0x04 →
    let answered := fun r : Response => Host.Outcome.next (φ := Fault) (ρ := Refusal)
      (s.setHost p { s.host p with work := .answered { response := r, ofResend := true } })
    (∀ r, (s.host p).lastResponse = some r → exec (.resend p) s = answered { r with tag := f.tag }) ∧
    ((s.host p).lastResponse = none →
      exec (.resend p) s =
        answered { tag := f.tag, status := .notFound, session := (s.session p).number, payload := [] })

/-- R178. The CRC-8: the register's steps, the residue of 0 where the CRC byte is taken in as well, what it covers in a
command frame and in a response frame, and the spec's example. -/
def Obligations.Crc8 : Prop :=
  crc8 [] = 0 ∧
  (∀ (bs : List Byte) (b : Byte), crc8 (bs ++ [b]) =
    (fun r : Byte => if r.getMsbD 0 = true then (r <<< 1) ^^^ 0x9B else r <<< 1)^[8] (crc8 bs ^^^ b)) ∧
  (∀ bs : List Byte, crc8 (bs ++ [crc8 bs]) = 0) ∧
  (∀ f : Frame, f.crcOk = true ↔ f.crc = crc8 ([f.code, f.tag, byteOf f.payload.length] ++ f.payload)) ∧
  (∀ r : Response, ∃ body, responseBytes r = body ++ [crc8 body] ∧
    body = [0xC3, r.tag, statusByte r.status, byteOf r.session, byteOf r.payload.length] ++ r.payload) ∧
  crc8 [0x03, 0x01, 0x00] = 0xF4

/-- The codes of the wire formats: bytes and numbers of two bytes, ports, levels, yes and no, gate states, status bytes,
event kinds, key states, and the layouts of an event record and of a request entry. -/
def Obligations.WireCodes : Prop :=
  (∀ n < 256, (byteOf n).toNat = n) ∧
  (∀ n < 65536, ∃ hi lo : Byte, numBytes n = [hi, lo] ∧ hi.toNat * 256 + lo.toNat = n) ∧
  (∀ w : Word, ∃ hi lo : Byte, wordBytes w = [hi, lo] ∧ hi.toNat * 256 + lo.toNat = w.toNat) ∧
  [none, some Port.a, some Port.b].map portByte = [0xFF, 0, 1] ∧
  [false, true].map yesNoByte = [0, 1] ∧
  [Level.low, .high].map levelByte = [0, 1] ∧
  [GateState.shut, .opened].map gateStateByte = [0, 1] ∧
  [Status.ok, .badFrame, .unknown, .noSession, .badArg, .notFound, .denied, .inFlight, .qFull, .notFree, .noFree,
    .badSeq].map statusByte = [0x00, 0x01, 0x02, 0x03, 0x04, 0x05, 0x06, 0x07, 0x08, 0x09, 0x0A, 0x0B] ∧
  [EventKind.press, .release, .fault, .calDone, .reading, .sweepDone, .sweepAborted, .sweepCancelled, .cadenceSlip,
    .slotGone].map kindByte = [0x01, 0x02, 0x03, 0x04, 0x05, 0x10, 0x11, 0x12, 0x18, 0x20] ∧
  [KeyState.uncal, .idle, .arming, .held, .lifting, .fault].map keyStateByte = [0, 1, 2, 3, 4, 5] ∧
  (∀ r : EventRecord, ∃ flags : Byte,
    recordBytes r =
      [r.seq.extractLsb' 8 8, r.seq.extractLsb' 0 8, kindByte r.event.kind,
       (r.event.slot.map fun k => byteOf k.val).getD 0xFF, byteOf r.event.sweepId, flags,
       (BitVec.ofInt 16 r.event.value).extractLsb' 8 8, (BitVec.ofInt 16 r.event.value).extractLsb' 0 8,
       (BitVec.ofNat 16 (r.event.aux.getD 0xFFFF)).extractLsb' 8 8,
       (BitVec.ofNat 16 (r.event.aux.getD 0xFFFF)).extractLsb' 0 8,
       r.time.extractLsb' 8 8, r.time.extractLsb' 0 8] ∧
    flags.getLsbD 0 = r.event.sat ∧ flags.getLsbD 1 = r.event.low ∧ flags.getLsbD 2 = r.event.forced ∧
    flags.getLsbD 3 = r.event.washeld ∧ flags.getLsbD 4 = false ∧ flags.getLsbD 5 = false ∧
    flags.getLsbD 6 = false ∧ flags.getLsbD 7 = r.gap) ∧
  (∀ r : SweepRequest, ∃ attributes : Byte,
    requestEntry r = [byteOf r.id, attributes, byteOf r.session, byteOf r.remaining.length, byteOf r.measured,
      byteOf r.skipped, byteOf r.aborts] ∧
    attributes.getLsbD 0 = decide (r.port = .b) ∧ attributes.getLsbD 1 = decide (r.origin = .timer) ∧
    attributes.getLsbD 2 = decide (r.engaged ≠ []) ∧ attributes.getLsbD 3 = r.cancelling ∧
    attributes.getLsbD 4 = r.stale ∧ attributes.toNat < 32)

/-- The hub reads the arguments of a command exactly as the host writes them: a reader answers some arguments if and only
if they are well formed and the payload is theirs, with every argument at every value its encoding admits; and the ranges in
which the arguments are well formed (R9, R31, R81, R87, R130, R148). -/
def Obligations.ArgumentsReadExactly : Prop :=
  (∀ q : Params, q.wellFormed = true ↔
    q.pads ≠ 0 ∧ 64 ≤ q.limit ∧ q.limit ≤ 30000 ∧ 1 ≤ q.touch ∧ q.touch ≤ 4000 ∧ 1 ≤ q.release ∧ q.release ≤ q.touch ∧
    1 ≤ q.debounce ∧ q.debounce ≤ 8 ∧ q.drift ≤ 255 ∧ q.hold ≤ 255) ∧
  (∀ n, lengthWellFormed n = true ↔ 2 ≤ n ∧ n ≤ 64) ∧
  (∀ ks : List SlotNo, slotListWellFormed ks = true ↔ ks.length ≤ 32 ∧ ks.Nodup) ∧
  (∀ n, periodWellFormed n = true ↔ 5 ≤ n ∧ n ≤ 50000) ∧
  (∀ g : GateSettings, g.wellFormed = true ↔ 1 ≤ g.abortLimit ∧ g.abortLimit ≤ 8) ∧
  (∀ n, fetchCountWellFormed n = true ↔ 1 ≤ n ∧ n ≤ 8) ∧
  (∀ bs k, slotArg bs = some k ↔ bs = [byteOf k.val]) ∧
  (∀ bs c q, defineArg bs = some (c, q) ↔ q.wellFormed = true ∧ bs = choiceByte c :: paramsBytes q) ∧
  (∀ bs k q, modifyArg bs = some (k, q) ↔ q.wellFormed = true ∧ bs = byteOf k.val :: paramsBytes q) ∧
  (∀ bs i pf, setProfileArg bs = some (i, pf) ↔
    (lengthWellFormed pf.charge = true ∧ lengthWellFormed pf.transfer = true) ∧
    bs = [byteOf i.val, byteOf pf.charge, byteOf pf.transfer]) ∧
  (∀ bs ks, slotListArg bs = some ks ↔ slotListWellFormed ks = true ∧ bs = slotListBytes ks) ∧
  (∀ bs, sweepArg bs = some .standing ↔ bs = sweepBytes .standing) ∧
  (∀ bs ks, sweepArg bs = some (.explicit ks) ↔
    ks ≠ [] ∧ slotListWellFormed ks = true ∧ bs = sweepBytes (.explicit ks)) ∧
  (∀ bs id, cancelArg bs = some id ↔ 1 ≤ id ∧ id ≤ 255 ∧ bs = [byteOf id]) ∧
  (∀ bs n, periodArg bs = some n ↔ periodWellFormed n = true ∧ ∃ a, bs = a :: numBytes n) ∧
  (∀ bs g, gateArg bs = some g ↔ g.wellFormed = true ∧ bs = gateBytes g) ∧
  (∀ bs n, fetchArg bs = some n ↔ fetchCountWellFormed n = true ∧ bs = [byteOf n]) ∧
  (∀ bs seq, ackArg bs = some seq ↔ bs = wordBytes seq)

/-- A whole transaction on the wire, bit by bit, at a port with a high xCS#, not executing and with an empty buffer: the bytes
that the host clocks in are read as one frame, which the port takes; nothing else of the hub changes. -/
def Obligations.ClockedFrameIsTaken : Prop :=
  ∀ (s : State) (p : Port) (f : Frame) (fill : List Byte), s.resetLow = false →
    (s.host p).csLow = false → (s.host p).transaction = none → (s.host p).work = .none → (s.host p).buffer = none →
    f.code ≠ 0 → f.payload.length ≤ 60 → s.pending = transactionEvents p (frameBytes f ++ fill) →
    Host.Core.run Sys2Proof.core s.pending.length s =
      .next ({ s with pending := [] }.setHost p { s.host p with work := .taken f, sdo := none })

/-! ## What every step keeps -/

/-- The invariants hold at device reset. The model's choices among what they say are that no tick is owed (log 4), that a lane
has counted no core clocks (log 8), and the line level (log 1). -/
def Obligations.ResetMeetsInvariants : Prop :=
  State.reset.SessionInv ∧ State.reset.CadenceInv ∧ State.reset.GateInv ∧ State.reset.ProfileInv ∧
  State.reset.EventQueueInv ∧ State.reset.SubscriberInv ∧ State.reset.ParamsInv ∧ State.reset.StandingInv ∧
  State.reset.ShareInv ∧ State.reset.CountsInv ∧ State.reset.RemainingInv ∧ State.reset.EngagedInv ∧
  State.reset.InFlightInv ∧ State.reset.NoIdleArbiterInv ∧ State.reset.RoundLiveInv ∧ State.reset.LaneInv ∧
  State.reset.KeyInv ∧ State.reset.HostPortInv ∧ State.reset.ResetInv

/-- Every step keeps the sessions, the cadence timers, the gate and the profiles in their ranges: a number goes with an
OPEN session alone, a timer runs and a port holds the gate only while its session is OPEN, and the observed state is the
one that the settings and the line give. That no tick is owed before a STOPPED timer is about the model's own field (log 4). -/
def Obligations.StepKeepsSessionsTimersAndGate : Prop :=
  ∀ s t : State, s.SessionInv ∧ s.CadenceInv ∧ s.GateInv ∧ s.ProfileInv → step s = .next t →
    t.SessionInv ∧ t.CadenceInv ∧ t.GateInv ∧ t.ProfileInv

/-- Every step keeps R139: at most 24 records, numbers rising by one, the delivered records a prefix, and the queue of a
CLOSED port empty. -/
def Obligations.StepKeepsEventQueues : Prop :=
  ∀ s t : State, s.EventQueueInv → step s = .next t → t.EventQueueInv

/-- Every step keeps R6 and R8: the owner subscribes, a slot not shared has no other subscriber, a CLOSED port subscribes
to no slot of the other port, and a standing list names only defined, subscribed slots. -/
def Obligations.StepKeepsSubscriptionsAndStandingLists : Prop :=
  ∀ s t : State, s.SubscriberInv ∧ s.StandingInv → step s = .next t → t.SubscriberInv ∧ t.StandingInv

/-- Every step keeps R27, R28 and R29: each port's share of three and its one TIMER request, distinct ids, and remaining
lists of distinct defined slots to which the port subscribes unless the request is cancelling; and the counts of a request
in their ranges (R25, R94): the slots measured, skipped and remaining are at most 32 in all, the abort count is at most 7.
That a stale request holds no FREE slot after a DELETE follows R28 and not R172, the model's choice (log 16). -/
def Obligations.StepKeepsSweepQueue : Prop :=
  ∀ s t : State,
    s.SessionInv ∧ s.CadenceInv ∧ s.GateInv ∧ s.SubscriberInv ∧ s.StandingInv ∧ s.ShareInv ∧ s.RemainingInv ∧
      s.CountsInv →
    step s = .next t → t.ShareInv ∧ t.RemainingInv ∧ t.CountsInv

/-- Every step keeps R48, R49 and R53: a slot is in flight exactly while a lane of the running round converts it, engaged
slots stand in the lane table, a cancelling request is engaged, a running round has a lane still to end and an engaged
request, and no round is left unformed while the gate is OPEN and a request waits. It keeps with them that the hub stands at
its reset values while RESET# is low, among which the line level, LOW, is the model's choice (log 1), as are the fields of its
own (logs 4, 8 and 15). -/
def Obligations.StepKeepsRounds : Prop :=
  ∀ s t : State,
    s.ResetInv ∧ s.SubscriberInv ∧ s.StandingInv ∧ s.RemainingInv ∧ s.EngagedInv ∧ s.InFlightInv ∧ s.RoundLiveInv ∧
      s.NoIdleArbiterInv →
    step s = .next t →
    t.ResetInv ∧ t.EngagedInv ∧ t.InFlightInv ∧ t.RoundLiveInv ∧ t.NoIdleArbiterInv

/-- Every step keeps each lane as R67 has it in its state, with its counter, its reading and the core clocks of its
conversion (R85, in a field of the model's own, log 8), and the key fields of every slot in the ranges of R101. -/
def Obligations.StepKeepsLanesAndKeys : Prop :=
  ∀ s t : State, s.ProfileInv ∧ s.ParamsInv ∧ s.LaneInv ∧ s.KeyInv → step s = .next t →
    t.ProfileInv ∧ t.ParamsInv ∧ t.LaneInv ∧ t.KeyInv

/-- Every step keeps R173 and R174: no response is pending while a command executes, xSDO is driven exactly while xCS# is low
and RESET# is high, a transaction runs under a low xCS# alone and never while RESET# is low, and a marker fits the port. -/
def Obligations.StepKeepsHostPorts : Prop :=
  ∀ s t : State, s.HostPortInv → step s = .next t → t.HostPortInv

/-- What a host sends, byte by byte: a command frame, the payloads whose reading ArgumentsReadExactly states, and the bits of
a byte in the order of the wire. -/
def Obligations.HostSideLayouts : Prop :=
  (∀ f : Frame, frameBytes f = [f.code, f.tag, byteOf f.payload.length] ++ f.payload ++ [f.crc]) ∧
  (∀ q : Params, ∃ options : Byte,
    paramsBytes q =
      [byteOf q.lane.val, q.pads.setWidth 8, byteOf q.profile.val] ++ numBytes q.limit ++ numBytes q.touch ++
      numBytes q.release ++ [byteOf q.debounce, byteOf q.drift, byteOf q.hold, options] ∧
    options.getLsbD 0 = q.shared ∧ options.getLsbD 1 = q.stream ∧ options.toNat < 4) ∧
  (∀ k : SlotNo, choiceByte (.named k) = byteOf k.val) ∧ choiceByte .any = 0xFF ∧
  (∀ ks : List SlotNo, slotListBytes ks = byteOf ks.length :: ks.map fun k => byteOf k.val) ∧
  sweepBytes .standing = [0xFF] ∧ (∀ ks, sweepBytes (.explicit ks) = slotListBytes ks) ∧
  (∀ g : GateSettings, gateBytes g =
    [if g.enabled = true then 1 else 0, if g.openLevel = .high then 1 else 0, byteOf g.abortLimit]) ∧
  (∀ b : Byte, bitsOf b = [b.getLsbD 7, b.getLsbD 6, b.getLsbD 5, b.getLsbD 4, b.getLsbD 3, b.getLsbD 2, b.getLsbD 1,
    b.getLsbD 0])
end

