-- ==== Sys2Proof/Laws/State.lean ====
section
/-! SUPPORT. The small lemmas of the hub's state: one for each field under each update, so that no proof unfolds a record
update. -/

namespace Sys2Proof

@[simp] theorem Port.other_other (p : Port) : p.other.other = p := by cases p <;> rfl

@[simp] theorem Port.other_ne (p : Port) : p.other ≠ p := by cases p <;> decide

@[simp] theorem Port.ne_other (p : Port) : p ≠ p.other := by cases p <;> decide

theorem Port.eq_other_of_ne {p q : Port} (h : q ≠ p) : q = p.other := by cases p <;> cases q <;> simp_all [Port.other]

namespace Machine

variable {α : Type}

@[simp] theorem PerPort.get_set (x : PerPort α) (p q : Port) (v : α) :
    (x.set p v).get q = if q = p then v else x.get q := by cases p <;> cases q <;> simp [PerPort.set, PerPort.get]

theorem PerPort.ext_get {x y : PerPort α} (h : ∀ p, x.get p = y.get p) : x = y := by
  have ha := h .a
  have hb := h .b
  cases x
  cases y
  simp_all [PerPort.get]

theorem PerPort.set_get_self (x : PerPort α) (p : Port) : x.set p (x.get p) = x := by cases p <;> rfl

theorem PerPort.set_set (x : PerPort α) (p : Port) (v w : α) : (x.set p v).set p w = x.set p w := by cases p <;> rfl

namespace State

variable (s : State) (p q : Port)

/-! ## Updates of one port -/

@[simp] theorem setPort_resetLow (x : PortState) : (s.setPort p x).resetLow = s.resetLow := rfl
@[simp] theorem setPort_tick (x : PortState) : (s.setPort p x).tick = s.tick := rfl
@[simp] theorem setPort_slots (x : PortState) : (s.setPort p x).slots = s.slots := rfl
@[simp] theorem setPort_profiles (x : PortState) : (s.setPort p x).profiles = s.profiles := rfl
@[simp] theorem setPort_queue (x : PortState) : (s.setPort p x).queue = s.queue := rfl
@[simp] theorem setPort_nextId (x : PortState) : (s.setPort p x).nextId = s.nextId := rfl
@[simp] theorem setPort_round (x : PortState) : (s.setPort p x).round = s.round := rfl
@[simp] theorem setPort_lastLeader (x : PortState) : (s.setPort p x).lastLeader = s.lastLeader := rfl
@[simp] theorem setPort_lanes (x : PortState) : (s.setPort p x).lanes = s.lanes := rfl
@[simp] theorem setPort_gate (x : PortState) : (s.setPort p x).gate = s.gate := rfl
@[simp] theorem setPort_pending (x : PortState) : (s.setPort p x).pending = s.pending := rfl

@[simp] theorem setPort_port (x : PortState) : (s.setPort p x).port q = if q = p then x else s.port q := by
  simp [setPort, port]

theorem setPort_port_self : s.setPort p (s.port p) = s := by simp [setPort, port, PerPort.set_get_self]

@[simp] theorem setPort_setPort (x y : PortState) : (s.setPort p x).setPort p y = s.setPort p y := by
  simp [setPort, PerPort.set_set]

@[simp] theorem setHost_resetLow (h : HostPort) : (s.setHost p h).resetLow = s.resetLow := rfl
@[simp] theorem setHost_tick (h : HostPort) : (s.setHost p h).tick = s.tick := rfl
@[simp] theorem setHost_slots (h : HostPort) : (s.setHost p h).slots = s.slots := rfl
@[simp] theorem setHost_profiles (h : HostPort) : (s.setHost p h).profiles = s.profiles := rfl
@[simp] theorem setHost_queue (h : HostPort) : (s.setHost p h).queue = s.queue := rfl
@[simp] theorem setHost_nextId (h : HostPort) : (s.setHost p h).nextId = s.nextId := rfl
@[simp] theorem setHost_round (h : HostPort) : (s.setHost p h).round = s.round := rfl
@[simp] theorem setHost_lastLeader (h : HostPort) : (s.setHost p h).lastLeader = s.lastLeader := rfl
@[simp] theorem setHost_lanes (h : HostPort) : (s.setHost p h).lanes = s.lanes := rfl
@[simp] theorem setHost_gate (h : HostPort) : (s.setHost p h).gate = s.gate := rfl
@[simp] theorem setHost_pending (h : HostPort) : (s.setHost p h).pending = s.pending := rfl

@[simp] theorem setHost_host (h : HostPort) : (s.setHost p h).host q = if q = p then h else s.host q := by
  by_cases h : q = p <;> simp [setHost, host, h]

@[simp] theorem setHost_session (h : HostPort) : (s.setHost p h).session q = s.session q := by
  by_cases h : q = p <;> simp [setHost, session, h]

@[simp] theorem setHost_standing (h : HostPort) : (s.setHost p h).standing q = s.standing q := by
  by_cases h : q = p <;> simp [setHost, standing, h]

@[simp] theorem setHost_cadence (h : HostPort) : (s.setHost p h).cadence q = s.cadence q := by
  by_cases h : q = p <;> simp [setHost, cadence, h]

@[simp] theorem setHost_events (h : HostPort) : (s.setHost p h).events q = s.events q := by
  by_cases h : q = p <;> simp [setHost, events, h]

theorem setHost_self : s.setHost p (s.host p) = s := setPort_port_self s p

@[simp] theorem setHost_setHost (h h' : HostPort) : (s.setHost p h).setHost p h' = s.setHost p h' := by simp [setHost]

@[simp] theorem setSession_resetLow (x : Session) : (s.setSession p x).resetLow = s.resetLow := rfl
@[simp] theorem setSession_tick (x : Session) : (s.setSession p x).tick = s.tick := rfl
@[simp] theorem setSession_slots (x : Session) : (s.setSession p x).slots = s.slots := rfl
@[simp] theorem setSession_profiles (x : Session) : (s.setSession p x).profiles = s.profiles := rfl
@[simp] theorem setSession_queue (x : Session) : (s.setSession p x).queue = s.queue := rfl
@[simp] theorem setSession_nextId (x : Session) : (s.setSession p x).nextId = s.nextId := rfl
@[simp] theorem setSession_round (x : Session) : (s.setSession p x).round = s.round := rfl
@[simp] theorem setSession_lastLeader (x : Session) : (s.setSession p x).lastLeader = s.lastLeader := rfl
@[simp] theorem setSession_lanes (x : Session) : (s.setSession p x).lanes = s.lanes := rfl
@[simp] theorem setSession_gate (x : Session) : (s.setSession p x).gate = s.gate := rfl
@[simp] theorem setSession_pending (x : Session) : (s.setSession p x).pending = s.pending := rfl

@[simp] theorem setSession_host (x : Session) : (s.setSession p x).host q = s.host q := by
  by_cases h : q = p <;> simp [setSession, host, h]

@[simp] theorem setSession_session (x : Session) : (s.setSession p x).session q = if q = p then x else s.session q := by
  by_cases h : q = p <;> simp [setSession, session, h]

@[simp] theorem setSession_standing (x : Session) : (s.setSession p x).standing q = s.standing q := by
  by_cases h : q = p <;> simp [setSession, standing, h]

@[simp] theorem setSession_cadence (x : Session) : (s.setSession p x).cadence q = s.cadence q := by
  by_cases h : q = p <;> simp [setSession, cadence, h]

@[simp] theorem setSession_events (x : Session) : (s.setSession p x).events q = s.events q := by
  by_cases h : q = p <;> simp [setSession, events, h]

theorem setSession_self : s.setSession p (s.session p) = s := setPort_port_self s p

@[simp] theorem setSession_setSession (x x' : Session) : (s.setSession p x).setSession p x' = s.setSession p x' := by simp [setSession]

@[simp] theorem setStanding_resetLow (ks : List SlotNo) : (s.setStanding p ks).resetLow = s.resetLow := rfl
@[simp] theorem setStanding_tick (ks : List SlotNo) : (s.setStanding p ks).tick = s.tick := rfl
@[simp] theorem setStanding_slots (ks : List SlotNo) : (s.setStanding p ks).slots = s.slots := rfl
@[simp] theorem setStanding_profiles (ks : List SlotNo) : (s.setStanding p ks).profiles = s.profiles := rfl
@[simp] theorem setStanding_queue (ks : List SlotNo) : (s.setStanding p ks).queue = s.queue := rfl
@[simp] theorem setStanding_nextId (ks : List SlotNo) : (s.setStanding p ks).nextId = s.nextId := rfl
@[simp] theorem setStanding_round (ks : List SlotNo) : (s.setStanding p ks).round = s.round := rfl
@[simp] theorem setStanding_lastLeader (ks : List SlotNo) : (s.setStanding p ks).lastLeader = s.lastLeader := rfl
@[simp] theorem setStanding_lanes (ks : List SlotNo) : (s.setStanding p ks).lanes = s.lanes := rfl
@[simp] theorem setStanding_gate (ks : List SlotNo) : (s.setStanding p ks).gate = s.gate := rfl
@[simp] theorem setStanding_pending (ks : List SlotNo) : (s.setStanding p ks).pending = s.pending := rfl

@[simp] theorem setStanding_host (ks : List SlotNo) : (s.setStanding p ks).host q = s.host q := by
  by_cases h : q = p <;> simp [setStanding, host, h]

@[simp] theorem setStanding_session (ks : List SlotNo) : (s.setStanding p ks).session q = s.session q := by
  by_cases h : q = p <;> simp [setStanding, session, h]

@[simp] theorem setStanding_standing (ks : List SlotNo) : (s.setStanding p ks).standing q = if q = p then ks else s.standing q := by
  by_cases h : q = p <;> simp [setStanding, standing, h]

@[simp] theorem setStanding_cadence (ks : List SlotNo) : (s.setStanding p ks).cadence q = s.cadence q := by
  by_cases h : q = p <;> simp [setStanding, cadence, h]

@[simp] theorem setStanding_events (ks : List SlotNo) : (s.setStanding p ks).events q = s.events q := by
  by_cases h : q = p <;> simp [setStanding, events, h]

theorem setStanding_self : s.setStanding p (s.standing p) = s := setPort_port_self s p

@[simp] theorem setStanding_setStanding (ks ks' : List SlotNo) : (s.setStanding p ks).setStanding p ks' = s.setStanding p ks' := by simp [setStanding]

@[simp] theorem setCadence_resetLow (c : Cadence) : (s.setCadence p c).resetLow = s.resetLow := rfl
@[simp] theorem setCadence_tick (c : Cadence) : (s.setCadence p c).tick = s.tick := rfl
@[simp] theorem setCadence_slots (c : Cadence) : (s.setCadence p c).slots = s.slots := rfl
@[simp] theorem setCadence_profiles (c : Cadence) : (s.setCadence p c).profiles = s.profiles := rfl
@[simp] theorem setCadence_queue (c : Cadence) : (s.setCadence p c).queue = s.queue := rfl
@[simp] theorem setCadence_nextId (c : Cadence) : (s.setCadence p c).nextId = s.nextId := rfl
@[simp] theorem setCadence_round (c : Cadence) : (s.setCadence p c).round = s.round := rfl
@[simp] theorem setCadence_lastLeader (c : Cadence) : (s.setCadence p c).lastLeader = s.lastLeader := rfl
@[simp] theorem setCadence_lanes (c : Cadence) : (s.setCadence p c).lanes = s.lanes := rfl
@[simp] theorem setCadence_gate (c : Cadence) : (s.setCadence p c).gate = s.gate := rfl
@[simp] theorem setCadence_pending (c : Cadence) : (s.setCadence p c).pending = s.pending := rfl

@[simp] theorem setCadence_host (c : Cadence) : (s.setCadence p c).host q = s.host q := by
  by_cases h : q = p <;> simp [setCadence, host, h]

@[simp] theorem setCadence_session (c : Cadence) : (s.setCadence p c).session q = s.session q := by
  by_cases h : q = p <;> simp [setCadence, session, h]

@[simp] theorem setCadence_standing (c : Cadence) : (s.setCadence p c).standing q = s.standing q := by
  by_cases h : q = p <;> simp [setCadence, standing, h]

@[simp] theorem setCadence_cadence (c : Cadence) : (s.setCadence p c).cadence q = if q = p then c else s.cadence q := by
  by_cases h : q = p <;> simp [setCadence, cadence, h]

@[simp] theorem setCadence_events (c : Cadence) : (s.setCadence p c).events q = s.events q := by
  by_cases h : q = p <;> simp [setCadence, events, h]

theorem setCadence_self : s.setCadence p (s.cadence p) = s := setPort_port_self s p

@[simp] theorem setCadence_setCadence (c c' : Cadence) : (s.setCadence p c).setCadence p c' = s.setCadence p c' := by simp [setCadence]

@[simp] theorem setEvents_resetLow (es : EventQueue) : (s.setEvents p es).resetLow = s.resetLow := rfl
@[simp] theorem setEvents_tick (es : EventQueue) : (s.setEvents p es).tick = s.tick := rfl
@[simp] theorem setEvents_slots (es : EventQueue) : (s.setEvents p es).slots = s.slots := rfl
@[simp] theorem setEvents_profiles (es : EventQueue) : (s.setEvents p es).profiles = s.profiles := rfl
@[simp] theorem setEvents_queue (es : EventQueue) : (s.setEvents p es).queue = s.queue := rfl
@[simp] theorem setEvents_nextId (es : EventQueue) : (s.setEvents p es).nextId = s.nextId := rfl
@[simp] theorem setEvents_round (es : EventQueue) : (s.setEvents p es).round = s.round := rfl
@[simp] theorem setEvents_lastLeader (es : EventQueue) : (s.setEvents p es).lastLeader = s.lastLeader := rfl
@[simp] theorem setEvents_lanes (es : EventQueue) : (s.setEvents p es).lanes = s.lanes := rfl
@[simp] theorem setEvents_gate (es : EventQueue) : (s.setEvents p es).gate = s.gate := rfl
@[simp] theorem setEvents_pending (es : EventQueue) : (s.setEvents p es).pending = s.pending := rfl

@[simp] theorem setEvents_host (es : EventQueue) : (s.setEvents p es).host q = s.host q := by
  by_cases h : q = p <;> simp [setEvents, host, h]

@[simp] theorem setEvents_session (es : EventQueue) : (s.setEvents p es).session q = s.session q := by
  by_cases h : q = p <;> simp [setEvents, session, h]

@[simp] theorem setEvents_standing (es : EventQueue) : (s.setEvents p es).standing q = s.standing q := by
  by_cases h : q = p <;> simp [setEvents, standing, h]

@[simp] theorem setEvents_cadence (es : EventQueue) : (s.setEvents p es).cadence q = s.cadence q := by
  by_cases h : q = p <;> simp [setEvents, cadence, h]

@[simp] theorem setEvents_events (es : EventQueue) : (s.setEvents p es).events q = if q = p then es else s.events q := by
  by_cases h : q = p <;> simp [setEvents, events, h]

theorem setEvents_self : s.setEvents p (s.events p) = s := setPort_port_self s p

@[simp] theorem setEvents_setEvents (es es' : EventQueue) : (s.setEvents p es).setEvents p es' = s.setEvents p es' := by simp [setEvents]

/-! ## Updates of one slot and of one lane -/

variable (k k' : SlotNo) (r : Option SlotRecord) (l l' : LaneNo) (x : Lane)

@[simp] theorem setSlot_resetLow : (s.setSlot k r).resetLow = s.resetLow := rfl
@[simp] theorem setSlot_tick : (s.setSlot k r).tick = s.tick := rfl
@[simp] theorem setSlot_profiles : (s.setSlot k r).profiles = s.profiles := rfl
@[simp] theorem setSlot_queue : (s.setSlot k r).queue = s.queue := rfl
@[simp] theorem setSlot_nextId : (s.setSlot k r).nextId = s.nextId := rfl
@[simp] theorem setSlot_round : (s.setSlot k r).round = s.round := rfl
@[simp] theorem setSlot_lastLeader : (s.setSlot k r).lastLeader = s.lastLeader := rfl
@[simp] theorem setSlot_lanes : (s.setSlot k r).lanes = s.lanes := rfl
@[simp] theorem setSlot_gate : (s.setSlot k r).gate = s.gate := rfl
@[simp] theorem setSlot_pending : (s.setSlot k r).pending = s.pending := rfl
@[simp] theorem setSlot_port : (s.setSlot k r).port p = s.port p := rfl
@[simp] theorem setSlot_host : (s.setSlot k r).host p = s.host p := rfl
@[simp] theorem setSlot_session : (s.setSlot k r).session p = s.session p := rfl
@[simp] theorem setSlot_standing : (s.setSlot k r).standing p = s.standing p := rfl
@[simp] theorem setSlot_cadence : (s.setSlot k r).cadence p = s.cadence p := rfl
@[simp] theorem setSlot_events : (s.setSlot k r).events p = s.events p := rfl
@[simp] theorem setSlot_lane : (s.setSlot k r).lane l = s.lane l := rfl

@[simp] theorem setSlot_slot : (s.setSlot k r).slot k' = if k' = k then r else s.slot k' := by
  simp [setSlot, slot, Vector.getElem_set, Fin.ext_iff, eq_comm]

@[simp] theorem setLane_resetLow : (s.setLane l x).resetLow = s.resetLow := rfl
@[simp] theorem setLane_tick : (s.setLane l x).tick = s.tick := rfl
@[simp] theorem setLane_slots : (s.setLane l x).slots = s.slots := rfl
@[simp] theorem setLane_profiles : (s.setLane l x).profiles = s.profiles := rfl
@[simp] theorem setLane_queue : (s.setLane l x).queue = s.queue := rfl
@[simp] theorem setLane_nextId : (s.setLane l x).nextId = s.nextId := rfl
@[simp] theorem setLane_round : (s.setLane l x).round = s.round := rfl
@[simp] theorem setLane_lastLeader : (s.setLane l x).lastLeader = s.lastLeader := rfl
@[simp] theorem setLane_gate : (s.setLane l x).gate = s.gate := rfl
@[simp] theorem setLane_pending : (s.setLane l x).pending = s.pending := rfl
@[simp] theorem setLane_port : (s.setLane l x).port p = s.port p := rfl
@[simp] theorem setLane_host : (s.setLane l x).host p = s.host p := rfl
@[simp] theorem setLane_session : (s.setLane l x).session p = s.session p := rfl
@[simp] theorem setLane_standing : (s.setLane l x).standing p = s.standing p := rfl
@[simp] theorem setLane_cadence : (s.setLane l x).cadence p = s.cadence p := rfl
@[simp] theorem setLane_events : (s.setLane l x).events p = s.events p := rfl
@[simp] theorem setLane_slot : (s.setLane l x).slot k = s.slot k := rfl

@[simp] theorem setLane_lane : (s.setLane l x).lane l' = if l' = l then x else s.lane l' := by
  simp [setLane, lane, Vector.getElem_set, Fin.ext_iff, eq_comm]

@[simp] theorem setPort_slot (y : PortState) : (s.setPort p y).slot k = s.slot k := rfl
@[simp] theorem setPort_lane (y : PortState) : (s.setPort p y).lane l = s.lane l := rfl
@[simp] theorem setHost_slot (h : HostPort) : (s.setHost p h).slot k = s.slot k := rfl
@[simp] theorem setHost_lane (h : HostPort) : (s.setHost p h).lane l = s.lane l := rfl
@[simp] theorem setSession_slot (x : Session) : (s.setSession p x).slot k = s.slot k := rfl
@[simp] theorem setSession_lane (x : Session) : (s.setSession p x).lane l = s.lane l := rfl
@[simp] theorem setStanding_slot (ks : List SlotNo) : (s.setStanding p ks).slot k = s.slot k := rfl
@[simp] theorem setStanding_lane (ks : List SlotNo) : (s.setStanding p ks).lane l = s.lane l := rfl
@[simp] theorem setCadence_slot (c : Cadence) : (s.setCadence p c).slot k = s.slot k := rfl
@[simp] theorem setCadence_lane (c : Cadence) : (s.setCadence p c).lane l = s.lane l := rfl
@[simp] theorem setEvents_slot (es : EventQueue) : (s.setEvents p es).slot k = s.slot k := rfl
@[simp] theorem setEvents_lane (es : EventQueue) : (s.setEvents p es).lane l = s.lane l := rfl

/-! ## Running and reset -/

theorem whileRunning_running (f : State → State) (h : s.resetLow = false) : s.whileRunning f = .next (f s) := by
  simp [whileRunning, h]

theorem whileRunning_reset (f : State → State) (h : s.resetLow = true) : s.whileRunning f = .next s := by
  simp [whileRunning, h]

end State

end Machine

end Sys2Proof
end

