-- ==== Sys2Proof/Laws/Ops.lean ====
section
/-! SUPPORT. What posting and answering can do: the frames of `post`, `postAll` and `postSubs`, what each leaves in an
event queue, and the cases of a command's execution. -/

namespace Sys2Proof.Machine

namespace State

variable (s : State)

/-! ## Posting touches the event queues alone -/

@[simp] theorem post_resetLow (p : Port) (e : Event) : (s.post p e).resetLow = s.resetLow := by unfold post; split <;> simp
@[simp] theorem post_tick (p : Port) (e : Event) : (s.post p e).tick = s.tick := by unfold post; split <;> simp
@[simp] theorem post_slots (p : Port) (e : Event) : (s.post p e).slots = s.slots := by unfold post; split <;> simp
@[simp] theorem post_profiles (p : Port) (e : Event) : (s.post p e).profiles = s.profiles := by unfold post; split <;> simp
@[simp] theorem post_queue (p : Port) (e : Event) : (s.post p e).queue = s.queue := by unfold post; split <;> simp
@[simp] theorem post_nextId (p : Port) (e : Event) : (s.post p e).nextId = s.nextId := by unfold post; split <;> simp
@[simp] theorem post_round (p : Port) (e : Event) : (s.post p e).round = s.round := by unfold post; split <;> simp
@[simp] theorem post_lastLeader (p : Port) (e : Event) : (s.post p e).lastLeader = s.lastLeader := by unfold post; split <;> simp
@[simp] theorem post_lanes (p : Port) (e : Event) : (s.post p e).lanes = s.lanes := by unfold post; split <;> simp
@[simp] theorem post_gate (p : Port) (e : Event) : (s.post p e).gate = s.gate := by unfold post; split <;> simp
@[simp] theorem post_pending (p : Port) (e : Event) : (s.post p e).pending = s.pending := by unfold post; split <;> simp
@[simp] theorem post_host (p : Port) (e : Event) (q : Port) : (s.post p e).host q = s.host q := by unfold post; split <;> simp
@[simp] theorem post_session (p : Port) (e : Event) (q : Port) : (s.post p e).session q = s.session q := by unfold post; split <;> simp
@[simp] theorem post_standing (p : Port) (e : Event) (q : Port) : (s.post p e).standing q = s.standing q := by unfold post; split <;> simp
@[simp] theorem post_cadence (p : Port) (e : Event) (q : Port) : (s.post p e).cadence q = s.cadence q := by unfold post; split <;> simp
@[simp] theorem post_slot (p : Port) (e : Event) (k' : SlotNo) : (s.post p e).slot k' = s.slot k' := by unfold post; split <;> simp
@[simp] theorem post_lane (p : Port) (e : Event) (l : LaneNo) : (s.post p e).lane l = s.lane l := by unfold post; split <;> simp

/-- What posting one event leaves in the queues (R143–R145). -/
theorem post_events (p q : Port) (e : Event) :
    (s.post p e).events q =
      if q = p ∧ (s.session p).isOpen = true then (s.events p).post e s.tick else s.events q := by
  unfold post
  by_cases h : (s.session p).isOpen <;> by_cases hq : q = p <;> simp [h, hq]

theorem postAll_cons (pe : Port × Event) (es : List (Port × Event)) :
    s.postAll (pe :: es) = (s.post pe.1 pe.2).postAll es := rfl

@[simp] theorem postAll_nil : s.postAll [] = s := rfl

theorem postAll_append (es es' : List (Port × Event)) : s.postAll (es ++ es') = (s.postAll es).postAll es' := by
  simp [postAll, List.foldl_append]

@[simp] theorem postAll_resetLow (es : List (Port × Event)) : (s.postAll es).resetLow = s.resetLow := by
  induction es generalizing s with
  | nil => rfl
  | cons pe es ih => simp [postAll_cons, ih]

@[simp] theorem postAll_tick (es : List (Port × Event)) : (s.postAll es).tick = s.tick := by
  induction es generalizing s with
  | nil => rfl
  | cons pe es ih => simp [postAll_cons, ih]

@[simp] theorem postAll_slots (es : List (Port × Event)) : (s.postAll es).slots = s.slots := by
  induction es generalizing s with
  | nil => rfl
  | cons pe es ih => simp [postAll_cons, ih]

@[simp] theorem postAll_profiles (es : List (Port × Event)) : (s.postAll es).profiles = s.profiles := by
  induction es generalizing s with
  | nil => rfl
  | cons pe es ih => simp [postAll_cons, ih]

@[simp] theorem postAll_queue (es : List (Port × Event)) : (s.postAll es).queue = s.queue := by
  induction es generalizing s with
  | nil => rfl
  | cons pe es ih => simp [postAll_cons, ih]

@[simp] theorem postAll_nextId (es : List (Port × Event)) : (s.postAll es).nextId = s.nextId := by
  induction es generalizing s with
  | nil => rfl
  | cons pe es ih => simp [postAll_cons, ih]

@[simp] theorem postAll_round (es : List (Port × Event)) : (s.postAll es).round = s.round := by
  induction es generalizing s with
  | nil => rfl
  | cons pe es ih => simp [postAll_cons, ih]

@[simp] theorem postAll_lastLeader (es : List (Port × Event)) : (s.postAll es).lastLeader = s.lastLeader := by
  induction es generalizing s with
  | nil => rfl
  | cons pe es ih => simp [postAll_cons, ih]

@[simp] theorem postAll_lanes (es : List (Port × Event)) : (s.postAll es).lanes = s.lanes := by
  induction es generalizing s with
  | nil => rfl
  | cons pe es ih => simp [postAll_cons, ih]

@[simp] theorem postAll_gate (es : List (Port × Event)) : (s.postAll es).gate = s.gate := by
  induction es generalizing s with
  | nil => rfl
  | cons pe es ih => simp [postAll_cons, ih]

@[simp] theorem postAll_pending (es : List (Port × Event)) : (s.postAll es).pending = s.pending := by
  induction es generalizing s with
  | nil => rfl
  | cons pe es ih => simp [postAll_cons, ih]

@[simp] theorem postAll_host (es : List (Port × Event)) (q : Port) : (s.postAll es).host q = s.host q := by
  induction es generalizing s with
  | nil => rfl
  | cons pe es ih => simp [postAll_cons, ih]

@[simp] theorem postAll_session (es : List (Port × Event)) (q : Port) : (s.postAll es).session q = s.session q := by
  induction es generalizing s with
  | nil => rfl
  | cons pe es ih => simp [postAll_cons, ih]

@[simp] theorem postAll_standing (es : List (Port × Event)) (q : Port) : (s.postAll es).standing q = s.standing q := by
  induction es generalizing s with
  | nil => rfl
  | cons pe es ih => simp [postAll_cons, ih]

@[simp] theorem postAll_cadence (es : List (Port × Event)) (q : Port) : (s.postAll es).cadence q = s.cadence q := by
  induction es generalizing s with
  | nil => rfl
  | cons pe es ih => simp [postAll_cons, ih]

@[simp] theorem postAll_slot (es : List (Port × Event)) (k' : SlotNo) : (s.postAll es).slot k' = s.slot k' := by
  induction es generalizing s with
  | nil => rfl
  | cons pe es ih => simp [postAll_cons, ih]

@[simp] theorem postAll_lane (es : List (Port × Event)) (l : LaneNo) : (s.postAll es).lane l = s.lane l := by
  induction es generalizing s with
  | nil => rfl
  | cons pe es ih => simp [postAll_cons, ih]

/-- What posting several events leaves in port `q`'s queue: while the session is OPEN, the events for `q` are taken by
the queue in their order, all with the one tick (R146). -/
theorem postAll_events (es : List (Port × Event)) (q : Port) :
    (s.postAll es).events q =
      if (s.session q).isOpen = true then
        (es.filter fun pe => decide (pe.1 = q)).foldl (fun Q pe => Q.post pe.2 s.tick) (s.events q)
      else s.events q := by
  induction es generalizing s with
  | nil => simp
  | cons pe es ih =>
    rw [postAll_cons, ih, post_events]
    by_cases hq : pe.1 = q
    · subst hq
      by_cases ho : (s.session pe.1).isOpen <;> simp [ho]
    · by_cases ho : (s.session q).isOpen <;> simp [ho, hq, Ne.symm hq]

@[simp] theorem postSubs_resetLow (subs : PerPort Bool) (e : Event) : (s.postSubs subs e).resetLow = s.resetLow := by simp [postSubs]
@[simp] theorem postSubs_tick (subs : PerPort Bool) (e : Event) : (s.postSubs subs e).tick = s.tick := by simp [postSubs]
@[simp] theorem postSubs_slots (subs : PerPort Bool) (e : Event) : (s.postSubs subs e).slots = s.slots := by simp [postSubs]
@[simp] theorem postSubs_profiles (subs : PerPort Bool) (e : Event) : (s.postSubs subs e).profiles = s.profiles := by simp [postSubs]
@[simp] theorem postSubs_queue (subs : PerPort Bool) (e : Event) : (s.postSubs subs e).queue = s.queue := by simp [postSubs]
@[simp] theorem postSubs_nextId (subs : PerPort Bool) (e : Event) : (s.postSubs subs e).nextId = s.nextId := by simp [postSubs]
@[simp] theorem postSubs_round (subs : PerPort Bool) (e : Event) : (s.postSubs subs e).round = s.round := by simp [postSubs]
@[simp] theorem postSubs_lastLeader (subs : PerPort Bool) (e : Event) : (s.postSubs subs e).lastLeader = s.lastLeader := by simp [postSubs]
@[simp] theorem postSubs_lanes (subs : PerPort Bool) (e : Event) : (s.postSubs subs e).lanes = s.lanes := by simp [postSubs]
@[simp] theorem postSubs_gate (subs : PerPort Bool) (e : Event) : (s.postSubs subs e).gate = s.gate := by simp [postSubs]
@[simp] theorem postSubs_pending (subs : PerPort Bool) (e : Event) : (s.postSubs subs e).pending = s.pending := by simp [postSubs]
@[simp] theorem postSubs_host (subs : PerPort Bool) (e : Event) (q : Port) : (s.postSubs subs e).host q = s.host q := by simp [postSubs]
@[simp] theorem postSubs_session (subs : PerPort Bool) (e : Event) (q : Port) : (s.postSubs subs e).session q = s.session q := by simp [postSubs]
@[simp] theorem postSubs_standing (subs : PerPort Bool) (e : Event) (q : Port) : (s.postSubs subs e).standing q = s.standing q := by simp [postSubs]
@[simp] theorem postSubs_cadence (subs : PerPort Bool) (e : Event) (q : Port) : (s.postSubs subs e).cadence q = s.cadence q := by simp [postSubs]
@[simp] theorem postSubs_slot (subs : PerPort Bool) (e : Event) (k' : SlotNo) : (s.postSubs subs e).slot k' = s.slot k' := by simp [postSubs]
@[simp] theorem postSubs_lane (subs : PerPort Bool) (e : Event) (l : LaneNo) : (s.postSubs subs e).lane l = s.lane l := by simp [postSubs]

/-- What posting to a subscriber set leaves in port `q`'s queue (R121). -/
theorem postSubs_events (subs : PerPort Bool) (e : Event) (q : Port) :
    (s.postSubs subs e).events q =
      if subs.get q = true ∧ (s.session q).isOpen = true then (s.events q).post e s.tick else s.events q := by
  unfold postSubs
  rw [postAll_events]
  by_cases ho : (s.session q).isOpen <;> cases q <;> cases ha : subs.a <;> cases hb : subs.b <;>
    simp [ho, ha, hb, PerPort.get]

/-! ## Answering -/

@[simp] theorem answer_resetLow (p : Port) (r : Outgoing) : (s.answer p r).resetLow = s.resetLow := by simp [answer]
@[simp] theorem answer_tick (p : Port) (r : Outgoing) : (s.answer p r).tick = s.tick := by simp [answer]
@[simp] theorem answer_slots (p : Port) (r : Outgoing) : (s.answer p r).slots = s.slots := by simp [answer]
@[simp] theorem answer_profiles (p : Port) (r : Outgoing) : (s.answer p r).profiles = s.profiles := by simp [answer]
@[simp] theorem answer_queue (p : Port) (r : Outgoing) : (s.answer p r).queue = s.queue := by simp [answer]
@[simp] theorem answer_nextId (p : Port) (r : Outgoing) : (s.answer p r).nextId = s.nextId := by simp [answer]
@[simp] theorem answer_round (p : Port) (r : Outgoing) : (s.answer p r).round = s.round := by simp [answer]
@[simp] theorem answer_lastLeader (p : Port) (r : Outgoing) : (s.answer p r).lastLeader = s.lastLeader := by simp [answer]
@[simp] theorem answer_lanes (p : Port) (r : Outgoing) : (s.answer p r).lanes = s.lanes := by simp [answer]
@[simp] theorem answer_gate (p : Port) (r : Outgoing) : (s.answer p r).gate = s.gate := by simp [answer]
@[simp] theorem answer_pending (p : Port) (r : Outgoing) : (s.answer p r).pending = s.pending := by simp [answer]
@[simp] theorem answer_session (p : Port) (r : Outgoing) (q : Port) : (s.answer p r).session q = s.session q := by simp [answer]
@[simp] theorem answer_standing (p : Port) (r : Outgoing) (q : Port) : (s.answer p r).standing q = s.standing q := by simp [answer]
@[simp] theorem answer_cadence (p : Port) (r : Outgoing) (q : Port) : (s.answer p r).cadence q = s.cadence q := by simp [answer]
@[simp] theorem answer_events (p : Port) (r : Outgoing) (q : Port) : (s.answer p r).events q = s.events q := by simp [answer]
@[simp] theorem answer_slot (p : Port) (r : Outgoing) (k' : SlotNo) : (s.answer p r).slot k' = s.slot k' := by simp [answer]
@[simp] theorem answer_lane (p : Port) (r : Outgoing) (l : LaneNo) : (s.answer p r).lane l = s.lane l := by simp [answer]

@[simp] theorem answer_host (p q : Port) (r : Outgoing) :
    (s.answer p r).host q = if q = p then { s.host p with work := .answered r } else s.host q := by simp [answer]

@[simp] theorem respond_resetLow (p : Port) (tag : Byte) (st : Status) (payload : List Byte) : (s.respond p tag st payload).resetLow = s.resetLow := by simp [respond]
@[simp] theorem respond_tick (p : Port) (tag : Byte) (st : Status) (payload : List Byte) : (s.respond p tag st payload).tick = s.tick := by simp [respond]
@[simp] theorem respond_slots (p : Port) (tag : Byte) (st : Status) (payload : List Byte) : (s.respond p tag st payload).slots = s.slots := by simp [respond]
@[simp] theorem respond_profiles (p : Port) (tag : Byte) (st : Status) (payload : List Byte) : (s.respond p tag st payload).profiles = s.profiles := by simp [respond]
@[simp] theorem respond_queue (p : Port) (tag : Byte) (st : Status) (payload : List Byte) : (s.respond p tag st payload).queue = s.queue := by simp [respond]
@[simp] theorem respond_nextId (p : Port) (tag : Byte) (st : Status) (payload : List Byte) : (s.respond p tag st payload).nextId = s.nextId := by simp [respond]
@[simp] theorem respond_round (p : Port) (tag : Byte) (st : Status) (payload : List Byte) : (s.respond p tag st payload).round = s.round := by simp [respond]
@[simp] theorem respond_lastLeader (p : Port) (tag : Byte) (st : Status) (payload : List Byte) : (s.respond p tag st payload).lastLeader = s.lastLeader := by simp [respond]
@[simp] theorem respond_lanes (p : Port) (tag : Byte) (st : Status) (payload : List Byte) : (s.respond p tag st payload).lanes = s.lanes := by simp [respond]
@[simp] theorem respond_gate (p : Port) (tag : Byte) (st : Status) (payload : List Byte) : (s.respond p tag st payload).gate = s.gate := by simp [respond]
@[simp] theorem respond_pending (p : Port) (tag : Byte) (st : Status) (payload : List Byte) : (s.respond p tag st payload).pending = s.pending := by simp [respond]
@[simp] theorem respond_session (p : Port) (tag : Byte) (st : Status) (payload : List Byte) (q : Port) : (s.respond p tag st payload).session q = s.session q := by simp [respond]
@[simp] theorem respond_standing (p : Port) (tag : Byte) (st : Status) (payload : List Byte) (q : Port) : (s.respond p tag st payload).standing q = s.standing q := by simp [respond]
@[simp] theorem respond_cadence (p : Port) (tag : Byte) (st : Status) (payload : List Byte) (q : Port) : (s.respond p tag st payload).cadence q = s.cadence q := by simp [respond]
@[simp] theorem respond_events (p : Port) (tag : Byte) (st : Status) (payload : List Byte) (q : Port) : (s.respond p tag st payload).events q = s.events q := by simp [respond]
@[simp] theorem respond_slot (p : Port) (tag : Byte) (st : Status) (payload : List Byte) (k' : SlotNo) : (s.respond p tag st payload).slot k' = s.slot k' := by simp [respond]
@[simp] theorem respond_lane (p : Port) (tag : Byte) (st : Status) (payload : List Byte) (l : LaneNo) : (s.respond p tag st payload).lane l = s.lane l := by simp [respond]

@[simp] theorem respond_host (p q : Port) (tag : Byte) (st : Status) (payload : List Byte) :
    (s.respond p tag st payload).host q =
      if q = p then
        { s.host p with
          work := .answered { response := ⟨tag, st, (s.session p).number, payload⟩, ofResend := false } }
      else s.host q := by simp [respond]

/-! ## Executing a taken command -/

theorem takenFrame_eq_some {p : Port} {f : Frame} : s.takenFrame p = some f ↔ (s.host p).work = .taken f := by
  unfold takenFrame
  split <;> simp_all

/-- What the execution of a taken command can come to (R182): a refusal, which only answers, or the state its accepted
action leaves, with an answer OK. -/
theorem execute_cases (p : Port) (f : Frame) (needs : Bool) (act : State → Frame → Answer) :
    (∃ st, s.execute p f needs act = s.respond p f.tag st []) ∨
    (f.crcOk = true ∧ (needs = true → (s.session p).isOpen = true) ∧
      ∃ s' payload, act s f = .accept s' payload ∧ s.execute p f needs act = s'.respond p f.tag .ok payload) := by
  unfold execute
  by_cases hc : f.crcOk = true
  · by_cases hn : (needs && !(s.session p).isOpen) = true
    · exact .inl ⟨.noSession, by simp [hc, hn]⟩
    · cases ha : act s f with
      | refuse st => exact .inl ⟨st, by simp [hc, hn, respondAnswer]⟩
      | accept s' payload =>
        refine .inr ⟨hc, ?_, s', payload, rfl, by simp [hc, hn, respondAnswer]⟩
        intro h
        simpa [h] using hn
  · exact .inl ⟨.badFrame, by simp [hc]⟩

end State

/-- The execution of a port's taken frame, where the row is the frame's own (R181). -/
theorem runCommand_taken {mine : Frame → Bool} {needs : Bool} {act : State → Frame → Answer} {p : Port} {s : State}
    {f : Frame} (hr : s.resetLow = false) (hw : (s.host p).work = .taken f) (hm : mine f = true) :
    runCommand mine needs act p s = .next (s.execute p f needs act) := by
  simp [runCommand, State.whileRunning, hr, s.takenFrame_eq_some.mpr hw, hm]

/-- What a host command's row can do: nothing, answer with a refusal, or take its action and answer OK. -/
theorem runCommand_cases {mine : Frame → Bool} {needs : Bool} {act : State → Frame → Answer} {p : Port} {s t : State}
    (h : runCommand mine needs act p s = .next t) :
    t = s ∨
    ∃ f, s.resetLow = false ∧ (s.host p).work = .taken f ∧ mine f = true ∧
      ((∃ st, t = s.respond p f.tag st []) ∨
       (f.crcOk = true ∧ (needs = true → (s.session p).isOpen = true) ∧
        ∃ s' payload, act s f = .accept s' payload ∧ t = s'.respond p f.tag .ok payload)) := by
  unfold runCommand State.whileRunning at h
  injection h with h
  split at h
  · exact .inl h.symm
  · rename_i hr
    beta_reduce at h
    split at h
    · exact .inl h.symm
    · rename_i f hf
      split at h
      · rename_i hm
        refine .inr ⟨f, by simpa using hr, s.takenFrame_eq_some.mp hf, hm, ?_⟩
        rw [← h]
        exact s.execute_cases p f needs act
      · exact .inl h.symm

/-- A host command's row always answers a next state. -/
theorem runCommand_next (mine : Frame → Bool) (needs : Bool) (act : State → Frame → Answer) (p : Port) (s : State) :
    ∃ t, runCommand mine needs act p s = .next t := ⟨_, rfl⟩

end Sys2Proof.Machine
end

