-- ==== Sys2Proof/Laws/Blocks.lean ====
section
/-! SUPPORT. The frames of the blocks' operations: one lemma for each piece of state an operation leaves as it was, and
what it makes of the pieces it writes. -/

namespace Sys2Proof.Machine

namespace State

variable (s : State)

/-! ## The sweep queue -/

@[simp] theorem walkQueue_resetLow (fate : SweepRequest → Fate) : (s.walkQueue fate).resetLow = s.resetLow := by simp [walkQueue]
@[simp] theorem walkQueue_tick (fate : SweepRequest → Fate) : (s.walkQueue fate).tick = s.tick := by simp [walkQueue]
@[simp] theorem walkQueue_slots (fate : SweepRequest → Fate) : (s.walkQueue fate).slots = s.slots := by simp [walkQueue]
@[simp] theorem walkQueue_profiles (fate : SweepRequest → Fate) : (s.walkQueue fate).profiles = s.profiles := by simp [walkQueue]
@[simp] theorem walkQueue_nextId (fate : SweepRequest → Fate) : (s.walkQueue fate).nextId = s.nextId := by simp [walkQueue]
@[simp] theorem walkQueue_round (fate : SweepRequest → Fate) : (s.walkQueue fate).round = s.round := by simp [walkQueue]
@[simp] theorem walkQueue_lastLeader (fate : SweepRequest → Fate) : (s.walkQueue fate).lastLeader = s.lastLeader := by simp [walkQueue]
@[simp] theorem walkQueue_lanes (fate : SweepRequest → Fate) : (s.walkQueue fate).lanes = s.lanes := by simp [walkQueue]
@[simp] theorem walkQueue_gate (fate : SweepRequest → Fate) : (s.walkQueue fate).gate = s.gate := by simp [walkQueue]
@[simp] theorem walkQueue_pending (fate : SweepRequest → Fate) : (s.walkQueue fate).pending = s.pending := by simp [walkQueue]
@[simp] theorem walkQueue_host (fate : SweepRequest → Fate) (q : Port) : (s.walkQueue fate).host q = s.host q := by
  simp only [walkQueue, postAll_host]
  rfl
@[simp] theorem walkQueue_session (fate : SweepRequest → Fate) (q : Port) : (s.walkQueue fate).session q = s.session q := by
  simp only [walkQueue, postAll_session]
  rfl
@[simp] theorem walkQueue_standing (fate : SweepRequest → Fate) (q : Port) : (s.walkQueue fate).standing q = s.standing q := by
  simp only [walkQueue, postAll_standing]
  rfl
@[simp] theorem walkQueue_cadence (fate : SweepRequest → Fate) (q : Port) : (s.walkQueue fate).cadence q = s.cadence q := by
  simp only [walkQueue, postAll_cadence]
  rfl
@[simp] theorem walkQueue_slot (fate : SweepRequest → Fate) (k' : SlotNo) : (s.walkQueue fate).slot k' = s.slot k' := by
  simp only [walkQueue, postAll_slot]
  rfl
@[simp] theorem walkQueue_lane (fate : SweepRequest → Fate) (l : LaneNo) : (s.walkQueue fate).lane l = s.lane l := by
  simp only [walkQueue, postAll_lane]
  rfl

@[simp] theorem walkQueue_queue (fate : SweepRequest → Fate) :
    (s.walkQueue fate).queue = s.queue.filterMap fun r => (fate r).kept := by simp [walkQueue]

/-- The events of a walk over the queue reach each port's queue in queue order (R40). -/
theorem walkQueue_events (fate : SweepRequest → Fate) (q : Port) :
    (s.walkQueue fate).events q =
      if (s.session q).isOpen = true then
        ((s.queue.flatMap fun r => (fate r).events).filter fun pe => decide (pe.1 = q)).foldl
          (fun Q pe => Q.post pe.2 s.tick) (s.events q)
      else s.events q := by
  simp only [walkQueue, postAll_events]
  rfl

@[simp] theorem stripStanding_resetLow (k : SlotNo) (p : Port) : (s.stripStanding k p).resetLow = s.resetLow := by simp [stripStanding]
@[simp] theorem stripStanding_tick (k : SlotNo) (p : Port) : (s.stripStanding k p).tick = s.tick := by simp [stripStanding]
@[simp] theorem stripStanding_slots (k : SlotNo) (p : Port) : (s.stripStanding k p).slots = s.slots := by simp [stripStanding]
@[simp] theorem stripStanding_profiles (k : SlotNo) (p : Port) : (s.stripStanding k p).profiles = s.profiles := by simp [stripStanding]
@[simp] theorem stripStanding_queue (k : SlotNo) (p : Port) : (s.stripStanding k p).queue = s.queue := by simp [stripStanding]
@[simp] theorem stripStanding_nextId (k : SlotNo) (p : Port) : (s.stripStanding k p).nextId = s.nextId := by simp [stripStanding]
@[simp] theorem stripStanding_round (k : SlotNo) (p : Port) : (s.stripStanding k p).round = s.round := by simp [stripStanding]
@[simp] theorem stripStanding_lastLeader (k : SlotNo) (p : Port) : (s.stripStanding k p).lastLeader = s.lastLeader := by simp [stripStanding]
@[simp] theorem stripStanding_lanes (k : SlotNo) (p : Port) : (s.stripStanding k p).lanes = s.lanes := by simp [stripStanding]
@[simp] theorem stripStanding_gate (k : SlotNo) (p : Port) : (s.stripStanding k p).gate = s.gate := by simp [stripStanding]
@[simp] theorem stripStanding_pending (k : SlotNo) (p : Port) : (s.stripStanding k p).pending = s.pending := by simp [stripStanding]
@[simp] theorem stripStanding_host (k : SlotNo) (p : Port) (q : Port) : (s.stripStanding k p).host q = s.host q := by simp [stripStanding]
@[simp] theorem stripStanding_session (k : SlotNo) (p : Port) (q : Port) : (s.stripStanding k p).session q = s.session q := by simp [stripStanding]
@[simp] theorem stripStanding_cadence (k : SlotNo) (p : Port) (q : Port) : (s.stripStanding k p).cadence q = s.cadence q := by simp [stripStanding]
@[simp] theorem stripStanding_events (k : SlotNo) (p : Port) (q : Port) : (s.stripStanding k p).events q = s.events q := by simp [stripStanding]
@[simp] theorem stripStanding_slot (k : SlotNo) (p : Port) (k' : SlotNo) : (s.stripStanding k p).slot k' = s.slot k' := by simp [stripStanding]
@[simp] theorem stripStanding_lane (k : SlotNo) (p : Port) (l : LaneNo) : (s.stripStanding k p).lane l = s.lane l := by simp [stripStanding]

@[simp] theorem stripStanding_standing (k : SlotNo) (p q : Port) :
    (s.stripStanding k p).standing q =
      if q = p then (s.standing p).filter (fun x => decide (x ≠ k)) else s.standing q := by simp [stripStanding]

@[simp] theorem cascade_resetLow (k : SlotNo) (r : SlotRecord) (losing : Port → Bool) : (s.cascade k r losing).resetLow = s.resetLow := by 
  unfold cascade
  cases losing .a <;> cases losing .b <;> simp <;> split <;> simp
@[simp] theorem cascade_tick (k : SlotNo) (r : SlotRecord) (losing : Port → Bool) : (s.cascade k r losing).tick = s.tick := by 
  unfold cascade
  cases losing .a <;> cases losing .b <;> simp <;> split <;> simp
@[simp] theorem cascade_slots (k : SlotNo) (r : SlotRecord) (losing : Port → Bool) : (s.cascade k r losing).slots = s.slots := by 
  unfold cascade
  cases losing .a <;> cases losing .b <;> simp <;> split <;> simp
@[simp] theorem cascade_profiles (k : SlotNo) (r : SlotRecord) (losing : Port → Bool) : (s.cascade k r losing).profiles = s.profiles := by 
  unfold cascade
  cases losing .a <;> cases losing .b <;> simp <;> split <;> simp
@[simp] theorem cascade_nextId (k : SlotNo) (r : SlotRecord) (losing : Port → Bool) : (s.cascade k r losing).nextId = s.nextId := by 
  unfold cascade
  cases losing .a <;> cases losing .b <;> simp <;> split <;> simp
@[simp] theorem cascade_round (k : SlotNo) (r : SlotRecord) (losing : Port → Bool) : (s.cascade k r losing).round = s.round := by 
  unfold cascade
  cases losing .a <;> cases losing .b <;> simp <;> split <;> simp
@[simp] theorem cascade_lastLeader (k : SlotNo) (r : SlotRecord) (losing : Port → Bool) : (s.cascade k r losing).lastLeader = s.lastLeader := by 
  unfold cascade
  cases losing .a <;> cases losing .b <;> simp <;> split <;> simp
@[simp] theorem cascade_lanes (k : SlotNo) (r : SlotRecord) (losing : Port → Bool) : (s.cascade k r losing).lanes = s.lanes := by 
  unfold cascade
  cases losing .a <;> cases losing .b <;> simp <;> split <;> simp
@[simp] theorem cascade_gate (k : SlotNo) (r : SlotRecord) (losing : Port → Bool) : (s.cascade k r losing).gate = s.gate := by 
  unfold cascade
  cases losing .a <;> cases losing .b <;> simp <;> split <;> simp
@[simp] theorem cascade_pending (k : SlotNo) (r : SlotRecord) (losing : Port → Bool) : (s.cascade k r losing).pending = s.pending := by 
  unfold cascade
  cases losing .a <;> cases losing .b <;> simp <;> split <;> simp
@[simp] theorem cascade_host (k : SlotNo) (r : SlotRecord) (losing : Port → Bool) (q : Port) : (s.cascade k r losing).host q = s.host q := by 
  unfold cascade
  cases losing .a <;> cases losing .b <;> simp <;> split <;> simp
@[simp] theorem cascade_session (k : SlotNo) (r : SlotRecord) (losing : Port → Bool) (q : Port) : (s.cascade k r losing).session q = s.session q := by 
  unfold cascade
  cases losing .a <;> cases losing .b <;> simp <;> split <;> simp
@[simp] theorem cascade_cadence (k : SlotNo) (r : SlotRecord) (losing : Port → Bool) (q : Port) : (s.cascade k r losing).cadence q = s.cadence q := by 
  unfold cascade
  cases losing .a <;> cases losing .b <;> simp <;> split <;> simp
@[simp] theorem cascade_slot (k : SlotNo) (r : SlotRecord) (losing : Port → Bool) (k' : SlotNo) : (s.cascade k r losing).slot k' = s.slot k' := by 
  unfold cascade
  cases losing .a <;> cases losing .b <;> simp <;> split <;> simp
@[simp] theorem cascade_lane (k : SlotNo) (r : SlotRecord) (losing : Port → Bool) (l : LaneNo) : (s.cascade k r losing).lane l = s.lane l := by 
  unfold cascade
  cases losing .a <;> cases losing .b <;> simp <;> split <;> simp

@[simp] theorem cascade_queue (k : SlotNo) (r : SlotRecord) (losing : Port → Bool) :
    (s.cascade k r losing).queue = s.queue.filterMap fun x => (cascadeFate k losing x).kept := by
  unfold cascade
  cases losing .a <;> cases losing .b <;> simp <;> split <;> simp

/-- Step 1 of the cascade at either port's standing list (R20). -/
@[simp] theorem cascade_standing (k : SlotNo) (r : SlotRecord) (losing : Port → Bool) (q : Port) :
    (s.cascade k r losing).standing q =
      if losing q = true then (s.standing q).filter (fun x => decide (x ≠ k)) else s.standing q := by
  unfold cascade
  cases q <;> cases losing .a <;> cases losing .b <;> simp <;> split <;> simp

@[simp] theorem addRequest_resetLow (p : Port) (o : Origin) (ks : List SlotNo) : (s.addRequest p o ks).resetLow = s.resetLow := rfl
@[simp] theorem addRequest_tick (p : Port) (o : Origin) (ks : List SlotNo) : (s.addRequest p o ks).tick = s.tick := rfl
@[simp] theorem addRequest_slots (p : Port) (o : Origin) (ks : List SlotNo) : (s.addRequest p o ks).slots = s.slots := rfl
@[simp] theorem addRequest_profiles (p : Port) (o : Origin) (ks : List SlotNo) : (s.addRequest p o ks).profiles = s.profiles := rfl
@[simp] theorem addRequest_round (p : Port) (o : Origin) (ks : List SlotNo) : (s.addRequest p o ks).round = s.round := rfl
@[simp] theorem addRequest_lastLeader (p : Port) (o : Origin) (ks : List SlotNo) : (s.addRequest p o ks).lastLeader = s.lastLeader := rfl
@[simp] theorem addRequest_lanes (p : Port) (o : Origin) (ks : List SlotNo) : (s.addRequest p o ks).lanes = s.lanes := rfl
@[simp] theorem addRequest_gate (p : Port) (o : Origin) (ks : List SlotNo) : (s.addRequest p o ks).gate = s.gate := rfl
@[simp] theorem addRequest_pending (p : Port) (o : Origin) (ks : List SlotNo) : (s.addRequest p o ks).pending = s.pending := rfl
@[simp] theorem addRequest_host (p : Port) (o : Origin) (ks : List SlotNo) (q : Port) : (s.addRequest p o ks).host q = s.host q := rfl
@[simp] theorem addRequest_session (p : Port) (o : Origin) (ks : List SlotNo) (q : Port) : (s.addRequest p o ks).session q = s.session q := rfl
@[simp] theorem addRequest_standing (p : Port) (o : Origin) (ks : List SlotNo) (q : Port) : (s.addRequest p o ks).standing q = s.standing q := rfl
@[simp] theorem addRequest_cadence (p : Port) (o : Origin) (ks : List SlotNo) (q : Port) : (s.addRequest p o ks).cadence q = s.cadence q := rfl
@[simp] theorem addRequest_events (p : Port) (o : Origin) (ks : List SlotNo) (q : Port) : (s.addRequest p o ks).events q = s.events q := rfl
@[simp] theorem addRequest_slot (p : Port) (o : Origin) (ks : List SlotNo) (k' : SlotNo) : (s.addRequest p o ks).slot k' = s.slot k' := rfl
@[simp] theorem addRequest_lane (p : Port) (o : Origin) (ks : List SlotNo) (l : LaneNo) : (s.addRequest p o ks).lane l = s.lane l := rfl

@[simp] theorem addRequest_queue (p : Port) (o : Origin) (ks : List SlotNo) :
    (s.addRequest p o ks).queue = s.queue ++ [newRequest s.freeSweepId p (s.session p).number o ks] := rfl

@[simp] theorem addRequest_nextId (p : Port) (o : Origin) (ks : List SlotNo) :
    (s.addRequest p o ks).nextId = nextSweepId s.freeSweepId := rfl

/-! ## Rounds -/

@[simp] theorem markInFlight_resetLow (round : Round) (b : Bool) : (s.markInFlight round b).resetLow = s.resetLow := by simp only [markInFlight]
@[simp] theorem markInFlight_tick (round : Round) (b : Bool) : (s.markInFlight round b).tick = s.tick := by simp only [markInFlight]
@[simp] theorem markInFlight_profiles (round : Round) (b : Bool) : (s.markInFlight round b).profiles = s.profiles := by simp only [markInFlight]
@[simp] theorem markInFlight_queue (round : Round) (b : Bool) : (s.markInFlight round b).queue = s.queue := by simp only [markInFlight]
@[simp] theorem markInFlight_nextId (round : Round) (b : Bool) : (s.markInFlight round b).nextId = s.nextId := by simp only [markInFlight]
@[simp] theorem markInFlight_round (round : Round) (b : Bool) : (s.markInFlight round b).round = s.round := by simp only [markInFlight]
@[simp] theorem markInFlight_lastLeader (round : Round) (b : Bool) : (s.markInFlight round b).lastLeader = s.lastLeader := by simp only [markInFlight]
@[simp] theorem markInFlight_lanes (round : Round) (b : Bool) : (s.markInFlight round b).lanes = s.lanes := by simp only [markInFlight]
@[simp] theorem markInFlight_gate (round : Round) (b : Bool) : (s.markInFlight round b).gate = s.gate := by simp only [markInFlight]
@[simp] theorem markInFlight_pending (round : Round) (b : Bool) : (s.markInFlight round b).pending = s.pending := by simp only [markInFlight]
@[simp] theorem markInFlight_host (round : Round) (b : Bool) (q : Port) : (s.markInFlight round b).host q = s.host q := by
  simp only [markInFlight, host, port]
@[simp] theorem markInFlight_session (round : Round) (b : Bool) (q : Port) : (s.markInFlight round b).session q = s.session q := by
  simp only [markInFlight, session, port]
@[simp] theorem markInFlight_standing (round : Round) (b : Bool) (q : Port) : (s.markInFlight round b).standing q = s.standing q := by
  simp only [markInFlight, standing, port]
@[simp] theorem markInFlight_cadence (round : Round) (b : Bool) (q : Port) : (s.markInFlight round b).cadence q = s.cadence q := by
  simp only [markInFlight, cadence, port]
@[simp] theorem markInFlight_events (round : Round) (b : Bool) (q : Port) : (s.markInFlight round b).events q = s.events q := by
  simp only [markInFlight, events, port]
@[simp] theorem markInFlight_lane (round : Round) (b : Bool) (l : LaneNo) : (s.markInFlight round b).lane l = s.lane l := by simp only [markInFlight, lane]

@[simp] theorem markInFlight_ports (round : Round) (b : Bool) : (s.markInFlight round b).ports = s.ports := by simp only [markInFlight]

@[simp] theorem markInFlight_slot (round : Round) (b : Bool) (k : SlotNo) :
    (s.markInFlight round b).slot k =
      if round.holds k = true then (s.slot k).map fun r => { r with inFlight := b } else s.slot k := by
  simp [markInFlight, slot]

@[simp] theorem roundStart_resetLow : (s.roundStart).resetLow = s.resetLow := by simp only [roundStart, markInFlight]
@[simp] theorem roundStart_tick : (s.roundStart).tick = s.tick := by simp only [roundStart, markInFlight]
@[simp] theorem roundStart_profiles : (s.roundStart).profiles = s.profiles := by simp only [roundStart, markInFlight]
@[simp] theorem roundStart_nextId : (s.roundStart).nextId = s.nextId := by simp only [roundStart, markInFlight]
@[simp] theorem roundStart_gate : (s.roundStart).gate = s.gate := by simp only [roundStart, markInFlight]
@[simp] theorem roundStart_pending : (s.roundStart).pending = s.pending := by simp only [roundStart, markInFlight]
@[simp] theorem roundStart_host (q : Port) : (s.roundStart).host q = s.host q := by
  simp only [roundStart, markInFlight, host, port]
@[simp] theorem roundStart_session (q : Port) : (s.roundStart).session q = s.session q := by
  simp only [roundStart, markInFlight, session, port]
@[simp] theorem roundStart_standing (q : Port) : (s.roundStart).standing q = s.standing q := by
  simp only [roundStart, markInFlight, standing, port]
@[simp] theorem roundStart_cadence (q : Port) : (s.roundStart).cadence q = s.cadence q := by
  simp only [roundStart, markInFlight, cadence, port]
@[simp] theorem roundStart_events (q : Port) : (s.roundStart).events q = s.events q := by
  simp only [roundStart, markInFlight, events, port]

@[simp] theorem roundStart_ports : (s.roundStart).ports = s.ports := by simp only [roundStart, markInFlight]

@[simp] theorem roundStart_round : s.roundStart.round = some s.newRound := rfl

@[simp] theorem roundStart_lastLeader : s.roundStart.lastLeader = some s.nextLeader := rfl

@[simp] theorem roundStart_queue : s.roundStart.queue = s.queue.map fun r => r.engage s.newRound := rfl

@[simp] theorem roundStart_lane (l : LaneNo) : s.roundStart.lane l = s.startedLane s.newRound l := by
  simp [roundStart, lane]

@[simp] theorem roundStart_slot (k : SlotNo) :
    s.roundStart.slot k =
      if s.newRound.holds k = true then (s.slot k).map fun r => { r with inFlight := true } else s.slot k := by
  unfold roundStart
  rw [markInFlight_slot]
  rfl

@[simp] theorem roundStartCheck_resetLow : (s.roundStartCheck).resetLow = s.resetLow := by unfold roundStartCheck; split <;> simp
@[simp] theorem roundStartCheck_tick : (s.roundStartCheck).tick = s.tick := by unfold roundStartCheck; split <;> simp
@[simp] theorem roundStartCheck_profiles : (s.roundStartCheck).profiles = s.profiles := by unfold roundStartCheck; split <;> simp
@[simp] theorem roundStartCheck_nextId : (s.roundStartCheck).nextId = s.nextId := by unfold roundStartCheck; split <;> simp
@[simp] theorem roundStartCheck_gate : (s.roundStartCheck).gate = s.gate := by unfold roundStartCheck; split <;> simp
@[simp] theorem roundStartCheck_pending : (s.roundStartCheck).pending = s.pending := by unfold roundStartCheck; split <;> simp
@[simp] theorem roundStartCheck_host (q : Port) : (s.roundStartCheck).host q = s.host q := by unfold roundStartCheck; split <;> simp
@[simp] theorem roundStartCheck_session (q : Port) : (s.roundStartCheck).session q = s.session q := by unfold roundStartCheck; split <;> simp
@[simp] theorem roundStartCheck_standing (q : Port) : (s.roundStartCheck).standing q = s.standing q := by unfold roundStartCheck; split <;> simp
@[simp] theorem roundStartCheck_cadence (q : Port) : (s.roundStartCheck).cadence q = s.cadence q := by unfold roundStartCheck; split <;> simp
@[simp] theorem roundStartCheck_events (q : Port) : (s.roundStartCheck).events q = s.events q := by unfold roundStartCheck; split <;> simp

@[simp] theorem handReading_resetLow (k : SlotNo) (rd : Reading) : (s.handReading k rd).resetLow = s.resetLow := by 
  unfold handReading
  split
  · rfl
  · dsimp only
    split <;> split <;> simp
@[simp] theorem handReading_tick (k : SlotNo) (rd : Reading) : (s.handReading k rd).tick = s.tick := by 
  unfold handReading
  split
  · rfl
  · dsimp only
    split <;> split <;> simp
@[simp] theorem handReading_profiles (k : SlotNo) (rd : Reading) : (s.handReading k rd).profiles = s.profiles := by 
  unfold handReading
  split
  · rfl
  · dsimp only
    split <;> split <;> simp
@[simp] theorem handReading_queue (k : SlotNo) (rd : Reading) : (s.handReading k rd).queue = s.queue := by 
  unfold handReading
  split
  · rfl
  · dsimp only
    split <;> split <;> simp
@[simp] theorem handReading_nextId (k : SlotNo) (rd : Reading) : (s.handReading k rd).nextId = s.nextId := by 
  unfold handReading
  split
  · rfl
  · dsimp only
    split <;> split <;> simp
@[simp] theorem handReading_round (k : SlotNo) (rd : Reading) : (s.handReading k rd).round = s.round := by 
  unfold handReading
  split
  · rfl
  · dsimp only
    split <;> split <;> simp
@[simp] theorem handReading_lastLeader (k : SlotNo) (rd : Reading) : (s.handReading k rd).lastLeader = s.lastLeader := by 
  unfold handReading
  split
  · rfl
  · dsimp only
    split <;> split <;> simp
@[simp] theorem handReading_lanes (k : SlotNo) (rd : Reading) : (s.handReading k rd).lanes = s.lanes := by 
  unfold handReading
  split
  · rfl
  · dsimp only
    split <;> split <;> simp
@[simp] theorem handReading_gate (k : SlotNo) (rd : Reading) : (s.handReading k rd).gate = s.gate := by 
  unfold handReading
  split
  · rfl
  · dsimp only
    split <;> split <;> simp
@[simp] theorem handReading_pending (k : SlotNo) (rd : Reading) : (s.handReading k rd).pending = s.pending := by 
  unfold handReading
  split
  · rfl
  · dsimp only
    split <;> split <;> simp
@[simp] theorem handReading_host (k : SlotNo) (rd : Reading) (q : Port) : (s.handReading k rd).host q = s.host q := by 
  unfold handReading
  split
  · rfl
  · dsimp only
    split <;> split <;> simp
@[simp] theorem handReading_session (k : SlotNo) (rd : Reading) (q : Port) : (s.handReading k rd).session q = s.session q := by 
  unfold handReading
  split
  · rfl
  · dsimp only
    split <;> split <;> simp
@[simp] theorem handReading_standing (k : SlotNo) (rd : Reading) (q : Port) : (s.handReading k rd).standing q = s.standing q := by 
  unfold handReading
  split
  · rfl
  · dsimp only
    split <;> split <;> simp
@[simp] theorem handReading_cadence (k : SlotNo) (rd : Reading) (q : Port) : (s.handReading k rd).cadence q = s.cadence q := by 
  unfold handReading
  split
  · rfl
  · dsimp only
    split <;> split <;> simp
@[simp] theorem handReading_lane (k : SlotNo) (rd : Reading) (l : LaneNo) : (s.handReading k rd).lane l = s.lane l := by 
  unfold handReading
  split
  · rfl
  · dsimp only
    split <;> split <;> simp

@[simp] theorem handLane_resetLow (round : Round) (l₀ : LaneNo) : (handLane round s l₀).resetLow = s.resetLow := by unfold handLane; split <;> simp
@[simp] theorem handLane_tick (round : Round) (l₀ : LaneNo) : (handLane round s l₀).tick = s.tick := by unfold handLane; split <;> simp
@[simp] theorem handLane_profiles (round : Round) (l₀ : LaneNo) : (handLane round s l₀).profiles = s.profiles := by unfold handLane; split <;> simp
@[simp] theorem handLane_queue (round : Round) (l₀ : LaneNo) : (handLane round s l₀).queue = s.queue := by unfold handLane; split <;> simp
@[simp] theorem handLane_nextId (round : Round) (l₀ : LaneNo) : (handLane round s l₀).nextId = s.nextId := by unfold handLane; split <;> simp
@[simp] theorem handLane_round (round : Round) (l₀ : LaneNo) : (handLane round s l₀).round = s.round := by unfold handLane; split <;> simp
@[simp] theorem handLane_lastLeader (round : Round) (l₀ : LaneNo) : (handLane round s l₀).lastLeader = s.lastLeader := by unfold handLane; split <;> simp
@[simp] theorem handLane_lanes (round : Round) (l₀ : LaneNo) : (handLane round s l₀).lanes = s.lanes := by unfold handLane; split <;> simp
@[simp] theorem handLane_gate (round : Round) (l₀ : LaneNo) : (handLane round s l₀).gate = s.gate := by unfold handLane; split <;> simp
@[simp] theorem handLane_pending (round : Round) (l₀ : LaneNo) : (handLane round s l₀).pending = s.pending := by unfold handLane; split <;> simp
@[simp] theorem handLane_host (round : Round) (l₀ : LaneNo) (q : Port) : (handLane round s l₀).host q = s.host q := by unfold handLane; split <;> simp
@[simp] theorem handLane_session (round : Round) (l₀ : LaneNo) (q : Port) : (handLane round s l₀).session q = s.session q := by unfold handLane; split <;> simp
@[simp] theorem handLane_standing (round : Round) (l₀ : LaneNo) (q : Port) : (handLane round s l₀).standing q = s.standing q := by unfold handLane; split <;> simp
@[simp] theorem handLane_cadence (round : Round) (l₀ : LaneNo) (q : Port) : (handLane round s l₀).cadence q = s.cadence q := by unfold handLane; split <;> simp
@[simp] theorem handLane_lane (round : Round) (l₀ : LaneNo) (l : LaneNo) : (handLane round s l₀).lane l = s.lane l := by unfold handLane; split <;> simp

@[simp] theorem handLanes_resetLow (round : Round) (ls : List LaneNo) : (ls.foldl (handLane round) s).resetLow = s.resetLow := by
  induction ls generalizing s with
  | nil => rfl
  | cons l₀ ls ih => simp [ih]

@[simp] theorem handLanes_tick (round : Round) (ls : List LaneNo) : (ls.foldl (handLane round) s).tick = s.tick := by
  induction ls generalizing s with
  | nil => rfl
  | cons l₀ ls ih => simp [ih]

@[simp] theorem handLanes_profiles (round : Round) (ls : List LaneNo) : (ls.foldl (handLane round) s).profiles = s.profiles := by
  induction ls generalizing s with
  | nil => rfl
  | cons l₀ ls ih => simp [ih]

@[simp] theorem handLanes_queue (round : Round) (ls : List LaneNo) : (ls.foldl (handLane round) s).queue = s.queue := by
  induction ls generalizing s with
  | nil => rfl
  | cons l₀ ls ih => simp [ih]

@[simp] theorem handLanes_nextId (round : Round) (ls : List LaneNo) : (ls.foldl (handLane round) s).nextId = s.nextId := by
  induction ls generalizing s with
  | nil => rfl
  | cons l₀ ls ih => simp [ih]

@[simp] theorem handLanes_round (round : Round) (ls : List LaneNo) : (ls.foldl (handLane round) s).round = s.round := by
  induction ls generalizing s with
  | nil => rfl
  | cons l₀ ls ih => simp [ih]

@[simp] theorem handLanes_lastLeader (round : Round) (ls : List LaneNo) : (ls.foldl (handLane round) s).lastLeader = s.lastLeader := by
  induction ls generalizing s with
  | nil => rfl
  | cons l₀ ls ih => simp [ih]

@[simp] theorem handLanes_lanes (round : Round) (ls : List LaneNo) : (ls.foldl (handLane round) s).lanes = s.lanes := by
  induction ls generalizing s with
  | nil => rfl
  | cons l₀ ls ih => simp [ih]

@[simp] theorem handLanes_gate (round : Round) (ls : List LaneNo) : (ls.foldl (handLane round) s).gate = s.gate := by
  induction ls generalizing s with
  | nil => rfl
  | cons l₀ ls ih => simp [ih]

@[simp] theorem handLanes_pending (round : Round) (ls : List LaneNo) : (ls.foldl (handLane round) s).pending = s.pending := by
  induction ls generalizing s with
  | nil => rfl
  | cons l₀ ls ih => simp [ih]

@[simp] theorem handLanes_host (round : Round) (ls : List LaneNo) (q : Port) : (ls.foldl (handLane round) s).host q = s.host q := by
  induction ls generalizing s with
  | nil => rfl
  | cons l₀ ls ih => simp [ih]

@[simp] theorem handLanes_session (round : Round) (ls : List LaneNo) (q : Port) : (ls.foldl (handLane round) s).session q = s.session q := by
  induction ls generalizing s with
  | nil => rfl
  | cons l₀ ls ih => simp [ih]

@[simp] theorem handLanes_standing (round : Round) (ls : List LaneNo) (q : Port) : (ls.foldl (handLane round) s).standing q = s.standing q := by
  induction ls generalizing s with
  | nil => rfl
  | cons l₀ ls ih => simp [ih]

@[simp] theorem handLanes_cadence (round : Round) (ls : List LaneNo) (q : Port) : (ls.foldl (handLane round) s).cadence q = s.cadence q := by
  induction ls generalizing s with
  | nil => rfl
  | cons l₀ ls ih => simp [ih]

@[simp] theorem handLanes_lane (round : Round) (ls : List LaneNo) (l : LaneNo) : (ls.foldl (handLane round) s).lane l = s.lane l := by
  induction ls generalizing s with
  | nil => rfl
  | cons l₀ ls ih => simp [ih]

@[simp] theorem clearRound_resetLow (round : Round) : (s.clearRound round).resetLow = s.resetLow := by simp only [clearRound, markInFlight]
@[simp] theorem clearRound_tick (round : Round) : (s.clearRound round).tick = s.tick := by simp only [clearRound, markInFlight]
@[simp] theorem clearRound_profiles (round : Round) : (s.clearRound round).profiles = s.profiles := by simp only [clearRound, markInFlight]
@[simp] theorem clearRound_queue (round : Round) : (s.clearRound round).queue = s.queue := by simp only [clearRound, markInFlight]
@[simp] theorem clearRound_nextId (round : Round) : (s.clearRound round).nextId = s.nextId := by simp only [clearRound, markInFlight]
@[simp] theorem clearRound_lastLeader (round : Round) : (s.clearRound round).lastLeader = s.lastLeader := by simp only [clearRound, markInFlight]
@[simp] theorem clearRound_gate (round : Round) : (s.clearRound round).gate = s.gate := by simp only [clearRound, markInFlight]
@[simp] theorem clearRound_pending (round : Round) : (s.clearRound round).pending = s.pending := by simp only [clearRound, markInFlight]
@[simp] theorem clearRound_host (round : Round) (q : Port) : (s.clearRound round).host q = s.host q := by
  simp only [clearRound, markInFlight, host, port]
@[simp] theorem clearRound_session (round : Round) (q : Port) : (s.clearRound round).session q = s.session q := by
  simp only [clearRound, markInFlight, session, port]
@[simp] theorem clearRound_standing (round : Round) (q : Port) : (s.clearRound round).standing q = s.standing q := by
  simp only [clearRound, markInFlight, standing, port]
@[simp] theorem clearRound_cadence (round : Round) (q : Port) : (s.clearRound round).cadence q = s.cadence q := by
  simp only [clearRound, markInFlight, cadence, port]
@[simp] theorem clearRound_events (round : Round) (q : Port) : (s.clearRound round).events q = s.events q := by
  simp only [clearRound, markInFlight, events, port]

@[simp] theorem clearRound_round (round : Round) : (s.clearRound round).round = none := rfl

@[simp] theorem clearRound_lane (round : Round) (l : LaneNo) :
    (s.clearRound round).lane l = if (round.lanes[l]).isSome = true then Lane.idle else s.lane l := by
  simp [clearRound, lane, markInFlight]

@[simp] theorem clearRound_slot (round : Round) (k : SlotNo) :
    (s.clearRound round).slot k =
      if round.holds k = true then (s.slot k).map fun r => { r with inFlight := false } else s.slot k := by
  unfold clearRound
  rw [markInFlight_slot]
  rfl

@[simp] theorem completeRound_resetLow (round : Round) : (s.completeRound round).resetLow = s.resetLow := by simp [completeRound]
@[simp] theorem completeRound_tick (round : Round) : (s.completeRound round).tick = s.tick := by simp [completeRound]
@[simp] theorem completeRound_profiles (round : Round) : (s.completeRound round).profiles = s.profiles := by simp [completeRound]
@[simp] theorem completeRound_nextId (round : Round) : (s.completeRound round).nextId = s.nextId := by simp [completeRound]
@[simp] theorem completeRound_gate (round : Round) : (s.completeRound round).gate = s.gate := by simp [completeRound]
@[simp] theorem completeRound_pending (round : Round) : (s.completeRound round).pending = s.pending := by simp [completeRound]
@[simp] theorem completeRound_host (round : Round) (q : Port) : (s.completeRound round).host q = s.host q := by simp [completeRound]
@[simp] theorem completeRound_session (round : Round) (q : Port) : (s.completeRound round).session q = s.session q := by simp [completeRound]
@[simp] theorem completeRound_standing (round : Round) (q : Port) : (s.completeRound round).standing q = s.standing q := by simp [completeRound]
@[simp] theorem completeRound_cadence (round : Round) (q : Port) : (s.completeRound round).cadence q = s.cadence q := by simp [completeRound]

@[simp] theorem idleLanes_resetLow : (s.idleLanes).resetLow = s.resetLow := rfl
@[simp] theorem idleLanes_tick : (s.idleLanes).tick = s.tick := rfl
@[simp] theorem idleLanes_slots : (s.idleLanes).slots = s.slots := rfl
@[simp] theorem idleLanes_profiles : (s.idleLanes).profiles = s.profiles := rfl
@[simp] theorem idleLanes_queue : (s.idleLanes).queue = s.queue := rfl
@[simp] theorem idleLanes_nextId : (s.idleLanes).nextId = s.nextId := rfl
@[simp] theorem idleLanes_round : (s.idleLanes).round = s.round := rfl
@[simp] theorem idleLanes_lastLeader : (s.idleLanes).lastLeader = s.lastLeader := rfl
@[simp] theorem idleLanes_gate : (s.idleLanes).gate = s.gate := rfl
@[simp] theorem idleLanes_pending : (s.idleLanes).pending = s.pending := rfl
@[simp] theorem idleLanes_host (q : Port) : (s.idleLanes).host q = s.host q := rfl
@[simp] theorem idleLanes_session (q : Port) : (s.idleLanes).session q = s.session q := rfl
@[simp] theorem idleLanes_standing (q : Port) : (s.idleLanes).standing q = s.standing q := rfl
@[simp] theorem idleLanes_cadence (q : Port) : (s.idleLanes).cadence q = s.cadence q := rfl
@[simp] theorem idleLanes_events (q : Port) : (s.idleLanes).events q = s.events q := rfl
@[simp] theorem idleLanes_slot (k' : SlotNo) : (s.idleLanes).slot k' = s.slot k' := rfl

@[simp] theorem idleLanes_lane (l : LaneNo) : s.idleLanes.lane l = Lane.idle := by simp [idleLanes, lane]

@[simp] theorem abortRound_resetLow (round : Round) : (s.abortRound round).resetLow = s.resetLow := by simp [abortRound]
@[simp] theorem abortRound_tick (round : Round) : (s.abortRound round).tick = s.tick := by simp [abortRound]
@[simp] theorem abortRound_profiles (round : Round) : (s.abortRound round).profiles = s.profiles := by simp [abortRound]
@[simp] theorem abortRound_nextId (round : Round) : (s.abortRound round).nextId = s.nextId := by simp [abortRound]
@[simp] theorem abortRound_gate (round : Round) : (s.abortRound round).gate = s.gate := by simp [abortRound]
@[simp] theorem abortRound_pending (round : Round) : (s.abortRound round).pending = s.pending := by simp [abortRound]
@[simp] theorem abortRound_host (round : Round) (q : Port) : (s.abortRound round).host q = s.host q := by simp [abortRound]
@[simp] theorem abortRound_session (round : Round) (q : Port) : (s.abortRound round).session q = s.session q := by simp [abortRound]
@[simp] theorem abortRound_standing (round : Round) (q : Port) : (s.abortRound round).standing q = s.standing q := by simp [abortRound]
@[simp] theorem abortRound_cadence (round : Round) (q : Port) : (s.abortRound round).cadence q = s.cadence q := by simp [abortRound]

@[simp] theorem completionCheck_resetLow : (s.completionCheck).resetLow = s.resetLow := by unfold completionCheck; split <;> (try split) <;> simp
@[simp] theorem completionCheck_tick : (s.completionCheck).tick = s.tick := by unfold completionCheck; split <;> (try split) <;> simp
@[simp] theorem completionCheck_profiles : (s.completionCheck).profiles = s.profiles := by unfold completionCheck; split <;> (try split) <;> simp
@[simp] theorem completionCheck_nextId : (s.completionCheck).nextId = s.nextId := by unfold completionCheck; split <;> (try split) <;> simp
@[simp] theorem completionCheck_gate : (s.completionCheck).gate = s.gate := by unfold completionCheck; split <;> (try split) <;> simp
@[simp] theorem completionCheck_pending : (s.completionCheck).pending = s.pending := by unfold completionCheck; split <;> (try split) <;> simp
@[simp] theorem completionCheck_host (q : Port) : (s.completionCheck).host q = s.host q := by unfold completionCheck; split <;> (try split) <;> simp
@[simp] theorem completionCheck_session (q : Port) : (s.completionCheck).session q = s.session q := by unfold completionCheck; split <;> (try split) <;> simp
@[simp] theorem completionCheck_standing (q : Port) : (s.completionCheck).standing q = s.standing q := by unfold completionCheck; split <;> (try split) <;> simp
@[simp] theorem completionCheck_cadence (q : Port) : (s.completionCheck).cadence q = s.cadence q := by unfold completionCheck; split <;> (try split) <;> simp

@[simp] theorem lanePulseEnd_resetLow (l : LaneNo) : (s.lanePulseEnd l).resetLow = s.resetLow := by unfold lanePulseEnd; dsimp only; split <;> simp
@[simp] theorem lanePulseEnd_tick (l : LaneNo) : (s.lanePulseEnd l).tick = s.tick := by unfold lanePulseEnd; dsimp only; split <;> simp
@[simp] theorem lanePulseEnd_profiles (l : LaneNo) : (s.lanePulseEnd l).profiles = s.profiles := by unfold lanePulseEnd; dsimp only; split <;> simp
@[simp] theorem lanePulseEnd_nextId (l : LaneNo) : (s.lanePulseEnd l).nextId = s.nextId := by unfold lanePulseEnd; dsimp only; split <;> simp
@[simp] theorem lanePulseEnd_gate (l : LaneNo) : (s.lanePulseEnd l).gate = s.gate := by unfold lanePulseEnd; dsimp only; split <;> simp
@[simp] theorem lanePulseEnd_pending (l : LaneNo) : (s.lanePulseEnd l).pending = s.pending := by unfold lanePulseEnd; dsimp only; split <;> simp
@[simp] theorem lanePulseEnd_host (l : LaneNo) (q : Port) : (s.lanePulseEnd l).host q = s.host q := by unfold lanePulseEnd; dsimp only; split <;> simp
@[simp] theorem lanePulseEnd_session (l : LaneNo) (q : Port) : (s.lanePulseEnd l).session q = s.session q := by unfold lanePulseEnd; dsimp only; split <;> simp
@[simp] theorem lanePulseEnd_standing (l : LaneNo) (q : Port) : (s.lanePulseEnd l).standing q = s.standing q := by unfold lanePulseEnd; dsimp only; split <;> simp
@[simp] theorem lanePulseEnd_cadence (l : LaneNo) (q : Port) : (s.lanePulseEnd l).cadence q = s.cadence q := by unfold lanePulseEnd; dsimp only; split <;> simp

/-! ## The quiet gate -/

@[simp] theorem formObserved_resetLow : s.formObserved.resetLow = s.resetLow := by
  unfold formObserved
  dsimp only
  split <;> (try split) <;> (try simp)
@[simp] theorem formObserved_tick : s.formObserved.tick = s.tick := by
  unfold formObserved
  dsimp only
  split <;> (try split) <;> (try simp)
@[simp] theorem formObserved_profiles : s.formObserved.profiles = s.profiles := by
  unfold formObserved
  dsimp only
  split <;> (try split) <;> (try simp)
@[simp] theorem formObserved_nextId : s.formObserved.nextId = s.nextId := by
  unfold formObserved
  dsimp only
  split <;> (try split) <;> (try simp)
@[simp] theorem formObserved_pending : s.formObserved.pending = s.pending := by
  unfold formObserved
  dsimp only
  split <;> (try split) <;> (try simp)
@[simp] theorem formObserved_host (q : Port) : s.formObserved.host q = s.host q := by
  unfold formObserved
  dsimp only
  split <;> (try split) <;> (try simp) <;> rfl
@[simp] theorem formObserved_session (q : Port) : s.formObserved.session q = s.session q := by
  unfold formObserved
  dsimp only
  split <;> (try split) <;> (try simp) <;> rfl
@[simp] theorem formObserved_standing (q : Port) : s.formObserved.standing q = s.standing q := by
  unfold formObserved
  dsimp only
  split <;> (try split) <;> (try simp) <;> rfl
@[simp] theorem formObserved_cadence (q : Port) : s.formObserved.cadence q = s.cadence q := by
  unfold formObserved
  dsimp only
  split <;> (try split) <;> (try simp) <;> rfl

@[simp] theorem formObserved_gate :
    s.formObserved.gate = { s.gate with observed := observedState s.gate.settings s.gate.line } := by
  unfold formObserved
  dsimp only
  split <;> (try split) <;> simp_all

@[simp] theorem quietChange_resetLow (level : Level) : (s.quietChange level).resetLow = s.resetLow := by
  simp only [quietChange, formObserved_resetLow]
@[simp] theorem applyGate_resetLow (p : Port) (g : GateSettings) : (s.applyGate p g).resetLow = s.resetLow := by
  simp only [applyGate, roundStartCheck_resetLow, formObserved_resetLow]
@[simp] theorem quietChange_tick (level : Level) : (s.quietChange level).tick = s.tick := by
  simp only [quietChange, formObserved_tick]
@[simp] theorem applyGate_tick (p : Port) (g : GateSettings) : (s.applyGate p g).tick = s.tick := by
  simp only [applyGate, roundStartCheck_tick, formObserved_tick]
@[simp] theorem quietChange_profiles (level : Level) : (s.quietChange level).profiles = s.profiles := by
  simp only [quietChange, formObserved_profiles]
@[simp] theorem applyGate_profiles (p : Port) (g : GateSettings) : (s.applyGate p g).profiles = s.profiles := by
  simp only [applyGate, roundStartCheck_profiles, formObserved_profiles]
@[simp] theorem quietChange_nextId (level : Level) : (s.quietChange level).nextId = s.nextId := by
  simp only [quietChange, formObserved_nextId]
@[simp] theorem applyGate_nextId (p : Port) (g : GateSettings) : (s.applyGate p g).nextId = s.nextId := by
  simp only [applyGate, roundStartCheck_nextId, formObserved_nextId]
@[simp] theorem quietChange_pending (level : Level) : (s.quietChange level).pending = s.pending := by
  simp only [quietChange, formObserved_pending]
@[simp] theorem applyGate_pending (p : Port) (g : GateSettings) : (s.applyGate p g).pending = s.pending := by
  simp only [applyGate, roundStartCheck_pending, formObserved_pending]
@[simp] theorem quietChange_host (level : Level) (q : Port) : (s.quietChange level).host q = s.host q := by
  simp only [quietChange, formObserved_host]
  rfl
@[simp] theorem applyGate_host (p : Port) (g : GateSettings) (q : Port) : (s.applyGate p g).host q = s.host q := by
  simp only [applyGate, roundStartCheck_host, formObserved_host]
  rfl
@[simp] theorem quietChange_session (level : Level) (q : Port) : (s.quietChange level).session q = s.session q := by
  simp only [quietChange, formObserved_session]
  rfl
@[simp] theorem applyGate_session (p : Port) (g : GateSettings) (q : Port) : (s.applyGate p g).session q = s.session q := by
  simp only [applyGate, roundStartCheck_session, formObserved_session]
  rfl
@[simp] theorem quietChange_standing (level : Level) (q : Port) : (s.quietChange level).standing q = s.standing q := by
  simp only [quietChange, formObserved_standing]
  rfl
@[simp] theorem applyGate_standing (p : Port) (g : GateSettings) (q : Port) : (s.applyGate p g).standing q = s.standing q := by
  simp only [applyGate, roundStartCheck_standing, formObserved_standing]
  rfl
@[simp] theorem quietChange_cadence (level : Level) (q : Port) : (s.quietChange level).cadence q = s.cadence q := by
  simp only [quietChange, formObserved_cadence]
  rfl
@[simp] theorem applyGate_cadence (p : Port) (g : GateSettings) (q : Port) : (s.applyGate p g).cadence q = s.cadence q := by
  simp only [applyGate, roundStartCheck_cadence, formObserved_cadence]
  rfl

/-! ## Slots -/

@[simp] theorem postForcedRelease_resetLow (k : SlotNo) (r : SlotRecord) : (s.postForcedRelease k r).resetLow = s.resetLow := by unfold postForcedRelease; split <;> simp
@[simp] theorem postForcedRelease_tick (k : SlotNo) (r : SlotRecord) : (s.postForcedRelease k r).tick = s.tick := by unfold postForcedRelease; split <;> simp
@[simp] theorem postForcedRelease_slots (k : SlotNo) (r : SlotRecord) : (s.postForcedRelease k r).slots = s.slots := by unfold postForcedRelease; split <;> simp
@[simp] theorem postForcedRelease_profiles (k : SlotNo) (r : SlotRecord) : (s.postForcedRelease k r).profiles = s.profiles := by unfold postForcedRelease; split <;> simp
@[simp] theorem postForcedRelease_queue (k : SlotNo) (r : SlotRecord) : (s.postForcedRelease k r).queue = s.queue := by unfold postForcedRelease; split <;> simp
@[simp] theorem postForcedRelease_nextId (k : SlotNo) (r : SlotRecord) : (s.postForcedRelease k r).nextId = s.nextId := by unfold postForcedRelease; split <;> simp
@[simp] theorem postForcedRelease_round (k : SlotNo) (r : SlotRecord) : (s.postForcedRelease k r).round = s.round := by unfold postForcedRelease; split <;> simp
@[simp] theorem postForcedRelease_lastLeader (k : SlotNo) (r : SlotRecord) : (s.postForcedRelease k r).lastLeader = s.lastLeader := by unfold postForcedRelease; split <;> simp
@[simp] theorem postForcedRelease_lanes (k : SlotNo) (r : SlotRecord) : (s.postForcedRelease k r).lanes = s.lanes := by unfold postForcedRelease; split <;> simp
@[simp] theorem postForcedRelease_gate (k : SlotNo) (r : SlotRecord) : (s.postForcedRelease k r).gate = s.gate := by unfold postForcedRelease; split <;> simp
@[simp] theorem postForcedRelease_pending (k : SlotNo) (r : SlotRecord) : (s.postForcedRelease k r).pending = s.pending := by unfold postForcedRelease; split <;> simp
@[simp] theorem postForcedRelease_host (k : SlotNo) (r : SlotRecord) (q : Port) : (s.postForcedRelease k r).host q = s.host q := by unfold postForcedRelease; split <;> simp
@[simp] theorem postForcedRelease_session (k : SlotNo) (r : SlotRecord) (q : Port) : (s.postForcedRelease k r).session q = s.session q := by unfold postForcedRelease; split <;> simp
@[simp] theorem postForcedRelease_standing (k : SlotNo) (r : SlotRecord) (q : Port) : (s.postForcedRelease k r).standing q = s.standing q := by unfold postForcedRelease; split <;> simp
@[simp] theorem postForcedRelease_cadence (k : SlotNo) (r : SlotRecord) (q : Port) : (s.postForcedRelease k r).cadence q = s.cadence q := by unfold postForcedRelease; split <;> simp
@[simp] theorem postForcedRelease_slot (k : SlotNo) (r : SlotRecord) (k' : SlotNo) : (s.postForcedRelease k r).slot k' = s.slot k' := by unfold postForcedRelease; split <;> simp
@[simp] theorem postForcedRelease_lane (k : SlotNo) (r : SlotRecord) (l : LaneNo) : (s.postForcedRelease k r).lane l = s.lane l := by unfold postForcedRelease; split <;> simp

@[simp] theorem unshare_resetLow (k : SlotNo) (old r : SlotRecord) : (s.unshare k old r).resetLow = s.resetLow := by unfold unshare; split <;> simp
@[simp] theorem unshare_tick (k : SlotNo) (old r : SlotRecord) : (s.unshare k old r).tick = s.tick := by unfold unshare; split <;> simp
@[simp] theorem unshare_profiles (k : SlotNo) (old r : SlotRecord) : (s.unshare k old r).profiles = s.profiles := by unfold unshare; split <;> simp
@[simp] theorem unshare_nextId (k : SlotNo) (old r : SlotRecord) : (s.unshare k old r).nextId = s.nextId := by unfold unshare; split <;> simp
@[simp] theorem unshare_round (k : SlotNo) (old r : SlotRecord) : (s.unshare k old r).round = s.round := by unfold unshare; split <;> simp
@[simp] theorem unshare_lastLeader (k : SlotNo) (old r : SlotRecord) : (s.unshare k old r).lastLeader = s.lastLeader := by unfold unshare; split <;> simp
@[simp] theorem unshare_lanes (k : SlotNo) (old r : SlotRecord) : (s.unshare k old r).lanes = s.lanes := by unfold unshare; split <;> simp
@[simp] theorem unshare_gate (k : SlotNo) (old r : SlotRecord) : (s.unshare k old r).gate = s.gate := by unfold unshare; split <;> simp
@[simp] theorem unshare_pending (k : SlotNo) (old r : SlotRecord) : (s.unshare k old r).pending = s.pending := by unfold unshare; split <;> simp
@[simp] theorem unshare_host (k : SlotNo) (old r : SlotRecord) (q : Port) : (s.unshare k old r).host q = s.host q := by unfold unshare; split <;> simp
@[simp] theorem unshare_session (k : SlotNo) (old r : SlotRecord) (q : Port) : (s.unshare k old r).session q = s.session q := by unfold unshare; split <;> simp
@[simp] theorem unshare_cadence (k : SlotNo) (old r : SlotRecord) (q : Port) : (s.unshare k old r).cadence q = s.cadence q := by unfold unshare; split <;> simp
@[simp] theorem unshare_lane (k : SlotNo) (old r : SlotRecord) (l : LaneNo) : (s.unshare k old r).lane l = s.lane l := by unfold unshare; split <;> simp

@[simp] theorem applyModify_resetLow (k : SlotNo) (r : SlotRecord) (new : Params) : (s.applyModify k r new).resetLow = s.resetLow := by unfold applyModify; dsimp only; split <;> simp
@[simp] theorem applyModify_tick (k : SlotNo) (r : SlotRecord) (new : Params) : (s.applyModify k r new).tick = s.tick := by unfold applyModify; dsimp only; split <;> simp
@[simp] theorem applyModify_profiles (k : SlotNo) (r : SlotRecord) (new : Params) : (s.applyModify k r new).profiles = s.profiles := by unfold applyModify; dsimp only; split <;> simp
@[simp] theorem applyModify_nextId (k : SlotNo) (r : SlotRecord) (new : Params) : (s.applyModify k r new).nextId = s.nextId := by unfold applyModify; dsimp only; split <;> simp
@[simp] theorem applyModify_round (k : SlotNo) (r : SlotRecord) (new : Params) : (s.applyModify k r new).round = s.round := by unfold applyModify; dsimp only; split <;> simp
@[simp] theorem applyModify_lastLeader (k : SlotNo) (r : SlotRecord) (new : Params) : (s.applyModify k r new).lastLeader = s.lastLeader := by unfold applyModify; dsimp only; split <;> simp
@[simp] theorem applyModify_lanes (k : SlotNo) (r : SlotRecord) (new : Params) : (s.applyModify k r new).lanes = s.lanes := by unfold applyModify; dsimp only; split <;> simp
@[simp] theorem applyModify_gate (k : SlotNo) (r : SlotRecord) (new : Params) : (s.applyModify k r new).gate = s.gate := by unfold applyModify; dsimp only; split <;> simp
@[simp] theorem applyModify_pending (k : SlotNo) (r : SlotRecord) (new : Params) : (s.applyModify k r new).pending = s.pending := by unfold applyModify; dsimp only; split <;> simp
@[simp] theorem applyModify_host (k : SlotNo) (r : SlotRecord) (new : Params) (q : Port) : (s.applyModify k r new).host q = s.host q := by unfold applyModify; dsimp only; split <;> simp
@[simp] theorem applyModify_session (k : SlotNo) (r : SlotRecord) (new : Params) (q : Port) : (s.applyModify k r new).session q = s.session q := by unfold applyModify; dsimp only; split <;> simp
@[simp] theorem applyModify_cadence (k : SlotNo) (r : SlotRecord) (new : Params) (q : Port) : (s.applyModify k r new).cadence q = s.cadence q := by unfold applyModify; dsimp only; split <;> simp
@[simp] theorem applyModify_lane (k : SlotNo) (r : SlotRecord) (new : Params) (l : LaneNo) : (s.applyModify k r new).lane l = s.lane l := by unfold applyModify; dsimp only; split <;> simp

/-! ## Cadence timers -/

@[simp] theorem expiryAtQueue_resetLow (p : Port) : (s.expiryAtQueue p).resetLow = s.resetLow := by 
  unfold expiryAtQueue
  repeat' split
  all_goals simp
@[simp] theorem expiryAtQueue_tick (p : Port) : (s.expiryAtQueue p).tick = s.tick := by 
  unfold expiryAtQueue
  repeat' split
  all_goals simp
@[simp] theorem expiryAtQueue_profiles (p : Port) : (s.expiryAtQueue p).profiles = s.profiles := by 
  unfold expiryAtQueue
  repeat' split
  all_goals simp
@[simp] theorem expiryAtQueue_gate (p : Port) : (s.expiryAtQueue p).gate = s.gate := by 
  unfold expiryAtQueue
  repeat' split
  all_goals simp
@[simp] theorem expiryAtQueue_pending (p : Port) : (s.expiryAtQueue p).pending = s.pending := by 
  unfold expiryAtQueue
  repeat' split
  all_goals simp
@[simp] theorem expiryAtQueue_host (p : Port) (q : Port) : (s.expiryAtQueue p).host q = s.host q := by 
  unfold expiryAtQueue
  repeat' split
  all_goals simp
@[simp] theorem expiryAtQueue_session (p : Port) (q : Port) : (s.expiryAtQueue p).session q = s.session q := by 
  unfold expiryAtQueue
  repeat' split
  all_goals simp
@[simp] theorem expiryAtQueue_standing (p : Port) (q : Port) : (s.expiryAtQueue p).standing q = s.standing q := by 
  unfold expiryAtQueue
  repeat' split
  all_goals simp
@[simp] theorem expiryAtQueue_cadence (p : Port) (q : Port) : (s.expiryAtQueue p).cadence q = s.cadence q := by 
  unfold expiryAtQueue
  repeat' split
  all_goals simp

@[simp] theorem takeTick_resetLow (p : Port) : (s.takeTick p).resetLow = s.resetLow := by 
  unfold takeTick
  dsimp only
  repeat' split
  all_goals simp
@[simp] theorem takeTick_tick (p : Port) : (s.takeTick p).tick = s.tick := by 
  unfold takeTick
  dsimp only
  repeat' split
  all_goals simp
@[simp] theorem takeTick_profiles (p : Port) : (s.takeTick p).profiles = s.profiles := by 
  unfold takeTick
  dsimp only
  repeat' split
  all_goals simp
@[simp] theorem takeTick_gate (p : Port) : (s.takeTick p).gate = s.gate := by 
  unfold takeTick
  dsimp only
  repeat' split
  all_goals simp
@[simp] theorem takeTick_pending (p : Port) : (s.takeTick p).pending = s.pending := by 
  unfold takeTick
  dsimp only
  repeat' split
  all_goals simp
@[simp] theorem takeTick_host (p : Port) (q : Port) : (s.takeTick p).host q = s.host q := by 
  unfold takeTick
  dsimp only
  repeat' split
  all_goals simp
@[simp] theorem takeTick_session (p : Port) (q : Port) : (s.takeTick p).session q = s.session q := by 
  unfold takeTick
  dsimp only
  repeat' split
  all_goals simp
@[simp] theorem takeTick_standing (p : Port) (q : Port) : (s.takeTick p).standing q = s.standing q := by 
  unfold takeTick
  dsimp only
  repeat' split
  all_goals simp

@[simp] theorem timeBaseTick_resetLow : s.timeBaseTick.resetLow = s.resetLow := by simp [timeBaseTick]
@[simp] theorem timeBaseTick_slots : s.timeBaseTick.slots = s.slots := by simp [timeBaseTick]
@[simp] theorem timeBaseTick_profiles : s.timeBaseTick.profiles = s.profiles := by simp [timeBaseTick]
@[simp] theorem timeBaseTick_queue : s.timeBaseTick.queue = s.queue := by simp [timeBaseTick]
@[simp] theorem timeBaseTick_nextId : s.timeBaseTick.nextId = s.nextId := by simp [timeBaseTick]
@[simp] theorem timeBaseTick_round : s.timeBaseTick.round = s.round := by simp [timeBaseTick]
@[simp] theorem timeBaseTick_lastLeader : s.timeBaseTick.lastLeader = s.lastLeader := by simp [timeBaseTick]
@[simp] theorem timeBaseTick_lanes : s.timeBaseTick.lanes = s.lanes := by simp [timeBaseTick]
@[simp] theorem timeBaseTick_gate : s.timeBaseTick.gate = s.gate := by simp [timeBaseTick]
@[simp] theorem timeBaseTick_pending : s.timeBaseTick.pending = s.pending := by simp [timeBaseTick]
@[simp] theorem timeBaseTick_host (q : Port) : s.timeBaseTick.host q = s.host q := by simp [timeBaseTick]; rfl
@[simp] theorem timeBaseTick_session (q : Port) : s.timeBaseTick.session q = s.session q := by simp [timeBaseTick]; rfl
@[simp] theorem timeBaseTick_standing (q : Port) : s.timeBaseTick.standing q = s.standing q := by simp [timeBaseTick]; rfl
@[simp] theorem timeBaseTick_events (q : Port) : s.timeBaseTick.events q = s.events q := by simp [timeBaseTick]; rfl
@[simp] theorem timeBaseTick_slot (k' : SlotNo) : s.timeBaseTick.slot k' = s.slot k' := by simp [timeBaseTick]; rfl
@[simp] theorem timeBaseTick_lane (l : LaneNo) : s.timeBaseTick.lane l = s.lane l := by simp [timeBaseTick]; rfl

@[simp] theorem timeBaseTick_tick : s.timeBaseTick.tick = s.tick + 1 := by simp [timeBaseTick]

@[simp] theorem timeBaseTick_cadence (p : Port) : s.timeBaseTick.cadence p = (s.cadence p).reachedByTick := by
  cases p <;> simp [timeBaseTick] <;> rfl

/-! ## Sessions -/

@[simp] theorem idleLists_resetLow (p : Port) : (s.idleLists p).resetLow = s.resetLow := by simp [idleLists]
@[simp] theorem idleLists_tick (p : Port) : (s.idleLists p).tick = s.tick := by simp [idleLists]
@[simp] theorem idleLists_slots (p : Port) : (s.idleLists p).slots = s.slots := by simp [idleLists]
@[simp] theorem idleLists_profiles (p : Port) : (s.idleLists p).profiles = s.profiles := by simp [idleLists]
@[simp] theorem idleLists_queue (p : Port) : (s.idleLists p).queue = s.queue := by simp [idleLists]
@[simp] theorem idleLists_nextId (p : Port) : (s.idleLists p).nextId = s.nextId := by simp [idleLists]
@[simp] theorem idleLists_round (p : Port) : (s.idleLists p).round = s.round := by simp [idleLists]
@[simp] theorem idleLists_lastLeader (p : Port) : (s.idleLists p).lastLeader = s.lastLeader := by simp [idleLists]
@[simp] theorem idleLists_lanes (p : Port) : (s.idleLists p).lanes = s.lanes := by simp [idleLists]
@[simp] theorem idleLists_gate (p : Port) : (s.idleLists p).gate = s.gate := by simp [idleLists]
@[simp] theorem idleLists_pending (p : Port) : (s.idleLists p).pending = s.pending := by simp [idleLists]
@[simp] theorem idleLists_host (p : Port) (q : Port) : (s.idleLists p).host q = s.host q := by simp [idleLists]
@[simp] theorem idleLists_session (p : Port) (q : Port) : (s.idleLists p).session q = s.session q := by simp [idleLists]
@[simp] theorem idleLists_events (p : Port) (q : Port) : (s.idleLists p).events q = s.events q := by simp [idleLists]
@[simp] theorem idleLists_slot (p : Port) (k' : SlotNo) : (s.idleLists p).slot k' = s.slot k' := by simp [idleLists]
@[simp] theorem idleLists_lane (p : Port) (l : LaneNo) : (s.idleLists p).lane l = s.lane l := by simp [idleLists]

@[simp] theorem idleLists_standing (p q : Port) :
    (s.idleLists p).standing q = if q = p then [] else s.standing q := by simp [idleLists]

@[simp] theorem idleLists_cadence (p q : Port) :
    (s.idleLists p).cadence q = if q = p then (s.cadence p).stop else s.cadence q := by simp [idleLists]

@[simp] theorem dropSubscriptions_resetLow (p : Port) : (s.dropSubscriptions p).resetLow = s.resetLow := by simp only [dropSubscriptions]
@[simp] theorem dropSubscriptions_tick (p : Port) : (s.dropSubscriptions p).tick = s.tick := by simp only [dropSubscriptions]
@[simp] theorem dropSubscriptions_profiles (p : Port) : (s.dropSubscriptions p).profiles = s.profiles := by simp only [dropSubscriptions]
@[simp] theorem dropSubscriptions_queue (p : Port) : (s.dropSubscriptions p).queue = s.queue := by simp only [dropSubscriptions]
@[simp] theorem dropSubscriptions_nextId (p : Port) : (s.dropSubscriptions p).nextId = s.nextId := by simp only [dropSubscriptions]
@[simp] theorem dropSubscriptions_round (p : Port) : (s.dropSubscriptions p).round = s.round := by simp only [dropSubscriptions]
@[simp] theorem dropSubscriptions_lastLeader (p : Port) : (s.dropSubscriptions p).lastLeader = s.lastLeader := by simp only [dropSubscriptions]
@[simp] theorem dropSubscriptions_lanes (p : Port) : (s.dropSubscriptions p).lanes = s.lanes := by simp only [dropSubscriptions]
@[simp] theorem dropSubscriptions_gate (p : Port) : (s.dropSubscriptions p).gate = s.gate := by simp only [dropSubscriptions]
@[simp] theorem dropSubscriptions_pending (p : Port) : (s.dropSubscriptions p).pending = s.pending := by simp only [dropSubscriptions]
@[simp] theorem dropSubscriptions_host (p : Port) (q : Port) : (s.dropSubscriptions p).host q = s.host q := by
  simp only [dropSubscriptions, host, port]
@[simp] theorem dropSubscriptions_session (p : Port) (q : Port) : (s.dropSubscriptions p).session q = s.session q := by
  simp only [dropSubscriptions, session, port]
@[simp] theorem dropSubscriptions_standing (p : Port) (q : Port) : (s.dropSubscriptions p).standing q = s.standing q := by
  simp only [dropSubscriptions, standing, port]
@[simp] theorem dropSubscriptions_cadence (p : Port) (q : Port) : (s.dropSubscriptions p).cadence q = s.cadence q := by
  simp only [dropSubscriptions, cadence, port]
@[simp] theorem dropSubscriptions_events (p : Port) (q : Port) : (s.dropSubscriptions p).events q = s.events q := by
  simp only [dropSubscriptions, events, port]
@[simp] theorem dropSubscriptions_lane (p : Port) (l : LaneNo) : (s.dropSubscriptions p).lane l = s.lane l := by simp only [dropSubscriptions, lane]

@[simp] theorem dropSubscriptions_slot (p : Port) (k : SlotNo) :
    (s.dropSubscriptions p).slot k =
      (s.slot k).map fun r => if r.owner = p then r else { r with subs := r.subs.set p false } := by
  simp [dropSubscriptions, slot]

@[simp] theorem emptyEvents_resetLow (p : Port) : (s.emptyEvents p).resetLow = s.resetLow := by simp [emptyEvents]
@[simp] theorem emptyEvents_tick (p : Port) : (s.emptyEvents p).tick = s.tick := by simp [emptyEvents]
@[simp] theorem emptyEvents_slots (p : Port) : (s.emptyEvents p).slots = s.slots := by simp [emptyEvents]
@[simp] theorem emptyEvents_profiles (p : Port) : (s.emptyEvents p).profiles = s.profiles := by simp [emptyEvents]
@[simp] theorem emptyEvents_queue (p : Port) : (s.emptyEvents p).queue = s.queue := by simp [emptyEvents]
@[simp] theorem emptyEvents_nextId (p : Port) : (s.emptyEvents p).nextId = s.nextId := by simp [emptyEvents]
@[simp] theorem emptyEvents_round (p : Port) : (s.emptyEvents p).round = s.round := by simp [emptyEvents]
@[simp] theorem emptyEvents_lastLeader (p : Port) : (s.emptyEvents p).lastLeader = s.lastLeader := by simp [emptyEvents]
@[simp] theorem emptyEvents_lanes (p : Port) : (s.emptyEvents p).lanes = s.lanes := by simp [emptyEvents]
@[simp] theorem emptyEvents_gate (p : Port) : (s.emptyEvents p).gate = s.gate := by simp [emptyEvents]
@[simp] theorem emptyEvents_pending (p : Port) : (s.emptyEvents p).pending = s.pending := by simp [emptyEvents]
@[simp] theorem emptyEvents_host (p : Port) (q : Port) : (s.emptyEvents p).host q = s.host q := by simp [emptyEvents]
@[simp] theorem emptyEvents_session (p : Port) (q : Port) : (s.emptyEvents p).session q = s.session q := by simp [emptyEvents]
@[simp] theorem emptyEvents_standing (p : Port) (q : Port) : (s.emptyEvents p).standing q = s.standing q := by simp [emptyEvents]
@[simp] theorem emptyEvents_cadence (p : Port) (q : Port) : (s.emptyEvents p).cadence q = s.cadence q := by simp [emptyEvents]
@[simp] theorem emptyEvents_slot (p : Port) (k' : SlotNo) : (s.emptyEvents p).slot k' = s.slot k' := by simp [emptyEvents]
@[simp] theorem emptyEvents_lane (p : Port) (l : LaneNo) : (s.emptyEvents p).lane l = s.lane l := by simp [emptyEvents]

@[simp] theorem emptyEvents_events (p q : Port) :
    (s.emptyEvents p).events q = if q = p then { records := [], nextSeq := 0 } else s.events q := by simp [emptyEvents]

@[simp] theorem releaseGate_resetLow (p : Port) : (s.releaseGate p).resetLow = s.resetLow := by unfold releaseGate; split <;> rfl
@[simp] theorem releaseGate_tick (p : Port) : (s.releaseGate p).tick = s.tick := by unfold releaseGate; split <;> rfl
@[simp] theorem releaseGate_slots (p : Port) : (s.releaseGate p).slots = s.slots := by unfold releaseGate; split <;> rfl
@[simp] theorem releaseGate_profiles (p : Port) : (s.releaseGate p).profiles = s.profiles := by unfold releaseGate; split <;> rfl
@[simp] theorem releaseGate_queue (p : Port) : (s.releaseGate p).queue = s.queue := by unfold releaseGate; split <;> rfl
@[simp] theorem releaseGate_nextId (p : Port) : (s.releaseGate p).nextId = s.nextId := by unfold releaseGate; split <;> rfl
@[simp] theorem releaseGate_round (p : Port) : (s.releaseGate p).round = s.round := by unfold releaseGate; split <;> rfl
@[simp] theorem releaseGate_lastLeader (p : Port) : (s.releaseGate p).lastLeader = s.lastLeader := by unfold releaseGate; split <;> rfl
@[simp] theorem releaseGate_lanes (p : Port) : (s.releaseGate p).lanes = s.lanes := by unfold releaseGate; split <;> rfl
@[simp] theorem releaseGate_pending (p : Port) : (s.releaseGate p).pending = s.pending := by unfold releaseGate; split <;> rfl
@[simp] theorem releaseGate_host (p : Port) (q : Port) : (s.releaseGate p).host q = s.host q := by unfold releaseGate; split <;> rfl
@[simp] theorem releaseGate_session (p : Port) (q : Port) : (s.releaseGate p).session q = s.session q := by unfold releaseGate; split <;> rfl
@[simp] theorem releaseGate_standing (p : Port) (q : Port) : (s.releaseGate p).standing q = s.standing q := by unfold releaseGate; split <;> rfl
@[simp] theorem releaseGate_cadence (p : Port) (q : Port) : (s.releaseGate p).cadence q = s.cadence q := by unfold releaseGate; split <;> rfl
@[simp] theorem releaseGate_events (p : Port) (q : Port) : (s.releaseGate p).events q = s.events q := by unfold releaseGate; split <;> rfl
@[simp] theorem releaseGate_slot (p : Port) (k' : SlotNo) : (s.releaseGate p).slot k' = s.slot k' := by unfold releaseGate; split <;> rfl
@[simp] theorem releaseGate_lane (p : Port) (l : LaneNo) : (s.releaseGate p).lane l = s.lane l := by unfold releaseGate; split <;> rfl

@[simp] theorem releaseGate_gate (p : Port) :
    (s.releaseGate p).gate = { s.gate with holder := if s.gate.holder = some p then none else s.gate.holder } := by
  unfold releaseGate
  split <;> simp_all

@[simp] theorem teardown_resetLow (p : Port) : (s.teardown p).resetLow = s.resetLow := by simp [teardown]
@[simp] theorem teardown_tick (p : Port) : (s.teardown p).tick = s.tick := by simp [teardown]
@[simp] theorem teardown_profiles (p : Port) : (s.teardown p).profiles = s.profiles := by simp [teardown]
@[simp] theorem teardown_nextId (p : Port) : (s.teardown p).nextId = s.nextId := by simp [teardown]
@[simp] theorem teardown_round (p : Port) : (s.teardown p).round = s.round := by simp [teardown]
@[simp] theorem teardown_lastLeader (p : Port) : (s.teardown p).lastLeader = s.lastLeader := by simp [teardown]
@[simp] theorem teardown_lanes (p : Port) : (s.teardown p).lanes = s.lanes := by simp [teardown]
@[simp] theorem teardown_pending (p : Port) : (s.teardown p).pending = s.pending := by simp [teardown]
@[simp] theorem teardown_host (p : Port) (q : Port) : (s.teardown p).host q = s.host q := by simp [teardown]
@[simp] theorem teardown_session (p : Port) (q : Port) : (s.teardown p).session q = s.session q := by simp [teardown]
@[simp] theorem teardown_lane (p : Port) (l : LaneNo) : (s.teardown p).lane l = s.lane l := by simp [teardown]

@[simp] theorem teardown_queue (p : Port) :
    (s.teardown p).queue = s.queue.filterMap fun r => (teardownFate p r).kept := by simp [teardown]

@[simp] theorem teardown_standing (p q : Port) :
    (s.teardown p).standing q = if q = p then [] else s.standing q := by simp [teardown]

@[simp] theorem teardown_cadence (p q : Port) :
    (s.teardown p).cadence q = if q = p then (s.cadence p).stop else s.cadence q := by simp [teardown]

@[simp] theorem teardown_slot (p : Port) (k : SlotNo) :
    (s.teardown p).slot k =
      (s.slot k).map fun r => if r.owner = p then r else { r with subs := r.subs.set p false } := by simp [teardown]

@[simp] theorem teardown_gate (p : Port) :
    (s.teardown p).gate = { s.gate with holder := if s.gate.holder = some p then none else s.gate.holder } := by
  simp [teardown]

/-- A teardown posts nothing, and empties the closing port's queue (R155, R165). -/
@[simp] theorem teardown_events (p q : Port) :
    (s.teardown p).events q = if q = p then { records := [], nextSeq := 0 } else s.events q := by
  have h : (s.queue.flatMap fun r => (teardownFate p r).events) = [] := by
    simp only [List.flatMap_eq_nil_iff]
    intro r _
    unfold teardownFate
    split <;> (try split) <;> rfl
  by_cases hq : q = p <;> simp [teardown, hq, walkQueue_events, h]

@[simp] theorem openNew_resetLow (p : Port) : (s.openNew p).resetLow = s.resetLow := by simp [openNew]
@[simp] theorem openNew_tick (p : Port) : (s.openNew p).tick = s.tick := by simp [openNew]
@[simp] theorem openNew_slots (p : Port) : (s.openNew p).slots = s.slots := by simp [openNew]
@[simp] theorem openNew_profiles (p : Port) : (s.openNew p).profiles = s.profiles := by simp [openNew]
@[simp] theorem openNew_queue (p : Port) : (s.openNew p).queue = s.queue := by simp [openNew]
@[simp] theorem openNew_nextId (p : Port) : (s.openNew p).nextId = s.nextId := by simp [openNew]
@[simp] theorem openNew_round (p : Port) : (s.openNew p).round = s.round := by simp [openNew]
@[simp] theorem openNew_lastLeader (p : Port) : (s.openNew p).lastLeader = s.lastLeader := by simp [openNew]
@[simp] theorem openNew_lanes (p : Port) : (s.openNew p).lanes = s.lanes := by simp [openNew]
@[simp] theorem openNew_gate (p : Port) : (s.openNew p).gate = s.gate := by simp [openNew]
@[simp] theorem openNew_pending (p : Port) : (s.openNew p).pending = s.pending := by simp [openNew]
@[simp] theorem openNew_host (p : Port) (q : Port) : (s.openNew p).host q = s.host q := by simp [openNew]
@[simp] theorem openNew_standing (p : Port) (q : Port) : (s.openNew p).standing q = s.standing q := by simp [openNew]
@[simp] theorem openNew_cadence (p : Port) (q : Port) : (s.openNew p).cadence q = s.cadence q := by simp [openNew]
@[simp] theorem openNew_events (p : Port) (q : Port) : (s.openNew p).events q = s.events q := by simp [openNew]
@[simp] theorem openNew_slot (p : Port) (k' : SlotNo) : (s.openNew p).slot k' = s.slot k' := by simp [openNew]
@[simp] theorem openNew_lane (p : Port) (l : LaneNo) : (s.openNew p).lane l = s.lane l := by simp [openNew]

@[simp] theorem openNew_session (p q : Port) :
    (s.openNew p).session q =
      if q = p then
        { isOpen := true, number := nextSession (s.session p).counter, counter := nextSession (s.session p).counter }
      else s.session q := by simp [openNew]

@[simp] theorem applyOpen_resetLow (p : Port) : (s.applyOpen p).resetLow = s.resetLow := by unfold applyOpen; split <;> simp
@[simp] theorem applyOpen_tick (p : Port) : (s.applyOpen p).tick = s.tick := by unfold applyOpen; split <;> simp
@[simp] theorem applyOpen_profiles (p : Port) : (s.applyOpen p).profiles = s.profiles := by unfold applyOpen; split <;> simp
@[simp] theorem applyOpen_nextId (p : Port) : (s.applyOpen p).nextId = s.nextId := by unfold applyOpen; split <;> simp
@[simp] theorem applyOpen_round (p : Port) : (s.applyOpen p).round = s.round := by unfold applyOpen; split <;> simp
@[simp] theorem applyOpen_lastLeader (p : Port) : (s.applyOpen p).lastLeader = s.lastLeader := by unfold applyOpen; split <;> simp
@[simp] theorem applyOpen_lanes (p : Port) : (s.applyOpen p).lanes = s.lanes := by unfold applyOpen; split <;> simp
@[simp] theorem applyOpen_pending (p : Port) : (s.applyOpen p).pending = s.pending := by unfold applyOpen; split <;> simp
@[simp] theorem applyOpen_host (p : Port) (q : Port) : (s.applyOpen p).host q = s.host q := by unfold applyOpen; split <;> simp
@[simp] theorem applyOpen_lane (p : Port) (l : LaneNo) : (s.applyOpen p).lane l = s.lane l := by unfold applyOpen; split <;> simp

@[simp] theorem applyClose_resetLow (p : Port) : (s.applyClose p).resetLow = s.resetLow := by simp [applyClose]
@[simp] theorem applyClose_tick (p : Port) : (s.applyClose p).tick = s.tick := by simp [applyClose]
@[simp] theorem applyClose_profiles (p : Port) : (s.applyClose p).profiles = s.profiles := by simp [applyClose]
@[simp] theorem applyClose_nextId (p : Port) : (s.applyClose p).nextId = s.nextId := by simp [applyClose]
@[simp] theorem applyClose_round (p : Port) : (s.applyClose p).round = s.round := by simp [applyClose]
@[simp] theorem applyClose_lastLeader (p : Port) : (s.applyClose p).lastLeader = s.lastLeader := by simp [applyClose]
@[simp] theorem applyClose_lanes (p : Port) : (s.applyClose p).lanes = s.lanes := by simp [applyClose]
@[simp] theorem applyClose_pending (p : Port) : (s.applyClose p).pending = s.pending := by simp [applyClose]
@[simp] theorem applyClose_host (p : Port) (q : Port) : (s.applyClose p).host q = s.host q := by simp [applyClose]
@[simp] theorem applyClose_lane (p : Port) (l : LaneNo) : (s.applyClose p).lane l = s.lane l := by simp [applyClose]

@[simp] theorem applyOpen_session (p q : Port) :
    (s.applyOpen p).session q =
      if q = p then
        { isOpen := true, number := nextSession (s.session p).counter, counter := nextSession (s.session p).counter }
      else s.session q := by
  unfold applyOpen
  split <;> simp

@[simp] theorem applyClose_session (p q : Port) :
    (s.applyClose p).session q =
      if q = p then { s.session p with isOpen := false, number := 0 } else s.session q := by simp [applyClose]

/-! ## Device reset -/

@[simp] theorem deviceReset_resetLow : s.deviceReset.resetLow = true := rfl
@[simp] theorem deviceReset_tick : s.deviceReset.tick = 0 := rfl
@[simp] theorem deviceReset_profiles : s.deviceReset.profiles = State.reset.profiles := rfl
@[simp] theorem deviceReset_queue : s.deviceReset.queue = [] := rfl
@[simp] theorem deviceReset_nextId : s.deviceReset.nextId = 1 := rfl
@[simp] theorem deviceReset_round : s.deviceReset.round = none := rfl
@[simp] theorem deviceReset_lastLeader : s.deviceReset.lastLeader = none := rfl
@[simp] theorem deviceReset_gate : s.deviceReset.gate = Gate.reset := rfl
@[simp] theorem deviceReset_pending : s.deviceReset.pending = s.pending := rfl
@[simp] theorem deviceReset_port (q : Port) : s.deviceReset.port q = (s.port q).deviceReset := by cases q <;> rfl
@[simp] theorem deviceReset_host (q : Port) : s.deviceReset.host q = (s.host q).deviceReset := by
  simp [host, PortState.deviceReset]
@[simp] theorem deviceReset_session (q : Port) :
    s.deviceReset.session q = { isOpen := false, number := 0, counter := 0 } := by
  simp [session, PortState.deviceReset, PortState.reset]
@[simp] theorem deviceReset_standing (q : Port) : s.deviceReset.standing q = [] := by
  simp [standing, PortState.deviceReset, PortState.reset]
@[simp] theorem deviceReset_cadence (q : Port) :
    s.deviceReset.cadence q = { running := false, counter := 1000, latch := 1000, owed := 0 } := by
  simp [cadence, PortState.deviceReset, PortState.reset, Config.cadenceReset]
@[simp] theorem deviceReset_events (q : Port) : s.deviceReset.events q = { records := [], nextSeq := 0 } := by
  simp [events, PortState.deviceReset, PortState.reset]
@[simp] theorem deviceReset_slot (k : SlotNo) : s.deviceReset.slot k = none := by
  simp [slot, deviceReset, State.reset]
@[simp] theorem deviceReset_lane (l : LaneNo) : s.deviceReset.lane l = Lane.idle := by
  simp [lane, deviceReset, State.reset]
@[simp] theorem deviceReset_deviceReset : s.deviceReset.deviceReset = s.deviceReset := rfl
@[simp] theorem reset_deviceReset : State.reset.deviceReset = State.reset := rfl

/-! ## The release of RESET# and the edges of xCS# -/

@[simp] theorem release_resetLow (quiet : Level) : (s.release quiet).resetLow = false := rfl
@[simp] theorem release_tick (quiet : Level) : (s.release quiet).tick = s.tick := rfl
@[simp] theorem release_slots (quiet : Level) : (s.release quiet).slots = s.slots := rfl
@[simp] theorem release_profiles (quiet : Level) : (s.release quiet).profiles = s.profiles := rfl
@[simp] theorem release_queue (quiet : Level) : (s.release quiet).queue = s.queue := rfl
@[simp] theorem release_nextId (quiet : Level) : (s.release quiet).nextId = s.nextId := rfl
@[simp] theorem release_round (quiet : Level) : (s.release quiet).round = s.round := rfl
@[simp] theorem release_lastLeader (quiet : Level) : (s.release quiet).lastLeader = s.lastLeader := rfl
@[simp] theorem release_lanes (quiet : Level) : (s.release quiet).lanes = s.lanes := rfl
@[simp] theorem release_pending (quiet : Level) : (s.release quiet).pending = s.pending := rfl
@[simp] theorem release_gate (quiet : Level) :
    (s.release quiet).gate =
      { s.gate with line := quiet, observed := observedState s.gate.settings quiet } := rfl
@[simp] theorem release_slot (quiet : Level) (k : SlotNo) : (s.release quiet).slot k = s.slot k := rfl
@[simp] theorem release_lane (quiet : Level) (l : LaneNo) : (s.release quiet).lane l = s.lane l := rfl
@[simp] theorem release_session (quiet : Level) (q : Port) : (s.release quiet).session q = s.session q := by
  cases q <;> rfl
@[simp] theorem release_standing (quiet : Level) (q : Port) : (s.release quiet).standing q = s.standing q := by
  cases q <;> rfl
@[simp] theorem release_cadence (quiet : Level) (q : Port) : (s.release quiet).cadence q = s.cadence q := by
  cases q <;> rfl
@[simp] theorem release_events (quiet : Level) (q : Port) : (s.release quiet).events q = s.events q := by
  cases q <;> rfl
@[simp] theorem release_host (quiet : Level) (q : Port) : (s.release quiet).host q = (s.host q).release q := by
  cases q <;> rfl

@[simp] theorem chipSelectEdge_host (p q : Port) (low : Bool) (act : HostPort → HostPort) :
    (s.chipSelectEdge p low act).host q =
      if q = p then (if s.resetLow then { s.host p with csLow := low } else act (s.host p)) else s.host q := by
  simp [chipSelectEdge]

end State

end Sys2Proof.Machine
end

