-- ==== Sys2Proof/Laws/Step.lean ====
section
/-! SUPPORT. What a step can do, said once: every command answers a next state, and a property that the named operations
keep is kept by every command and every step (`Preserved`). -/

namespace Sys2Proof.Machine

/-- Every command answers a next state: the hub raises no fault and refuses nothing. -/
theorem exec_next (i : Instr) (s : State) : ∃ t, exec i s = .next t := by cases i <;> exact ⟨_, rfl⟩

/-- Every step answers a next state. -/
theorem step_next (s : State) : ∃ t, step s = .next t := by
  unfold step
  split
  · exact ⟨_, rfl⟩
  · exact exec_next _ _

/-- What a property must survive to be kept by every command: each operation of the hub, under the checks that stand
before it. -/
structure Preserved (P : State → Prop) : Prop where
  pending : ∀ (s : State) (l : List Instr), P s → P { s with pending := l }
  host : ∀ (s : State) (p : Port) (h : HostPort), s.resetLow = false → P s → P (s.setHost p h)
  chipSelect : ∀ (s : State) (p : Port) (low : Bool), s.resetLow = true → P s →
    P (s.setHost p { s.host p with csLow := low })
  deviceReset : ∀ s : State, P s → P s.deviceReset
  release : ∀ (s : State) (quiet : Level), s.resetLow = true → P s → P (s.release quiet)
  quiet : ∀ (s : State) (level : Level), s.resetLow = false → P s → P (s.quietChange level)
  tick : ∀ s : State, s.resetLow = false → P s → P s.timeBaseTick
  takeTick : ∀ (s : State) (p : Port), s.resetLow = false → P s → P (s.takeTick p)
  openSession : ∀ (s : State) (p : Port), s.resetLow = false → P s → P (s.applyOpen p)
  closeSession : ∀ (s : State) (p : Port), s.resetLow = false → (s.session p).isOpen = true → P s → P (s.applyClose p)
  define : ∀ (s : State) (p : Port) (k : SlotNo) (q : Params), s.resetLow = false → (s.session p).isOpen = true →
    q.wellFormed = true → s.slot k = none → P s → P (s.setSlot k (some (newRecord p q)))
  modify : ∀ (s : State) (p : Port) (k : SlotNo) (r : SlotRecord) (q : Params), s.resetLow = false →
    (s.session p).isOpen = true → q.wellFormed = true → s.slot k = some r → r.owner = p → r.inFlight = false →
    P s → P (s.applyModify k r q)
  delete : ∀ (s : State) (p : Port) (k : SlotNo) (r : SlotRecord), s.resetLow = false → (s.session p).isOpen = true →
    s.slot k = some r → r.owner = p → r.inFlight = false → P s →
    P ((s.cascade k r fun _ => true).setSlot k none)
  subscribe : ∀ (s : State) (p : Port) (k : SlotNo) (r : SlotRecord), s.resetLow = false → (s.session p).isOpen = true →
    s.slot k = some r → r.subs.get p = false → r.params.shared = true → P s →
    P (s.setSlot k (some { r with subs := r.subs.set p true }))
  unsubscribe : ∀ (s : State) (p : Port) (k : SlotNo) (r : SlotRecord), s.resetLow = false →
    (s.session p).isOpen = true → s.slot k = some r → r.owner ≠ p → r.subs.get p = true → r.inFlight = false → P s →
    P ((s.setSlot k (some { r with subs := r.subs.set p false })).cascade k r fun x => decide (x = p))
  recalibrate : ∀ (s : State) (p : Port) (k : SlotNo) (r : SlotRecord), s.resetLow = false →
    (s.session p).isOpen = true → s.slot k = some r → r.subs.get p = true → P s →
    P ((s.postForcedRelease k r).setSlot k (some { r with key := KeyFields.initial }))
  setProfile : ∀ (s : State) (p : Port) (i : ProfileNo) (pf : Profile), s.resetLow = false →
    (s.session p).isOpen = true → lengthWellFormed pf.charge = true → lengthWellFormed pf.transfer = true →
    s.profileNamedBy p.other i = false → P s → P { s with profiles := s.profiles.set i.val pf i.isLt }
  setStanding : ∀ (s : State) (p : Port) (ks : List SlotNo), s.resetLow = false → (s.session p).isOpen = true →
    slotListWellFormed ks = true → s.allDefined ks = true → s.allSubscribed p ks = true → P s → P (s.setStanding p ks)
  sweep : ∀ (s : State) (p : Port) (ks : List SlotNo), s.resetLow = false → (s.session p).isOpen = true →
    (slotListWellFormed ks = true ∨ ks = s.standing p) → ks ≠ [] → s.allDefined ks = true →
    s.allSubscribed p ks = true → (s.requestsOf p).length < Config.requestsPerPort → P s →
    P (s.addRequest p .command ks).roundStartCheck
  cancel : ∀ (s : State) (p : Port) (id : Nat) (r : SweepRequest), s.resetLow = false →
    (s.session p).isOpen = true → r ∈ s.queue → r.id = id → r.port = p → P s → P (s.walkQueue (cancelFate id))
  setCadence : ∀ (s : State) (p : Port) (c : Cadence), s.resetLow = false → (s.session p).isOpen = true →
    ((∃ n, periodWellFormed n = true ∧ c = (s.cadence p).load n) ∨
     (∃ n, periodWellFormed n = true ∧ c = (s.cadence p).stage n) ∨
     c = (s.cadence p).stop ∨ c = (s.cadence p).resume) → P s → P (s.setCadence p c)
  setGate : ∀ (s : State) (p : Port) (g : GateSettings), s.resetLow = false → (s.session p).isOpen = true →
    g.wellFormed = true → s.gate.holder ≠ some p.other → P s → P (s.applyGate p g)
  fetch : ∀ (s : State) (p : Port) (n : Nat), s.resetLow = false → (s.session p).isOpen = true →
    fetchCountWellFormed n = true → P s → P (s.setEvents p ((s.events p).deliver n))
  ack : ∀ (s : State) (p : Port) (seq : Word) (i : Nat), s.resetLow = false → (s.session p).isOpen = true →
    (s.events p).ackPlace seq = some i → P s →
    P (s.setEvents p { s.events p with records := (s.events p).records.drop (i + 1) })
  dischargeEnd : ∀ (s : State) (l : LaneNo), s.resetLow = false → P s → P (s.setLane l (s.lane l).afterDischarge)
  phaseEnd : ∀ (s : State) (l : LaneNo), s.resetLow = false → P s → P (s.setLane l (s.lane l).afterPhase)
  transferEnd : ∀ (s : State) (l : LaneNo) (crossed : Bool), s.resetLow = false → P s →
    P (s.setLane l ((s.lane l).afterTransfer crossed))
  pulseEnd : ∀ (s : State) (l : LaneNo), s.resetLow = false → P s → P (s.lanePulseEnd l)

namespace Preserved

variable {P : State → Prop} {s t : State}

/-- An event in a running hub keeps what its effect keeps. -/
theorem whileRunning {f : State → State} (hf : s.resetLow = false → P (f s)) (hs : P s)
    (h : s.whileRunning f = .next t) : P t := by
  unfold State.whileRunning at h
  injection h with h
  subst h
  split
  · exact hs
  · exact hf (by simp_all)

/-- A host command's row keeps what its accepted action keeps. -/
theorem runCommand (K : Preserved P) {mine : Frame → Bool} {needs : Bool} {act : State → Frame → Answer} {p : Port}
    (hact : ∀ f s' payload, s.resetLow = false → (needs = true → (s.session p).isOpen = true) →
      act s f = .accept s' payload → P s' ∧ s'.resetLow = false)
    (hs : P s) (h : runCommand mine needs act p s = .next t) : P t := by
  rcases runCommand_cases h with rfl | ⟨f, hr, -, -, ⟨st, rfl⟩ | ⟨-, ho, s', payload, ha, rfl⟩⟩
  · exact hs
  · exact K.host _ _ _ hr hs
  · obtain ⟨hs', hr'⟩ := hact f s' payload hr ho ha
    exact K.host _ _ _ hr' hs'

end Preserved

/-! ## What an accepted action has passed -/

variable {s s' : State} {p : Port} {f : Frame} {payload : List Byte}

theorem paramsArg_wellFormed {bs : List Byte} {q : Params} (h : paramsArg bs = some q) : q.wellFormed = true := by
  unfold paramsArg at h
  split at h
  · split at h
    · dsimp only at h
      split at h
      · injection h with h
        rwa [← h]
      · cases h
    · cases h
  · cases h

theorem defineArg_wellFormed {bs : List Byte} {c : SlotChoice} {q : Params} (h : defineArg bs = some (c, q)) :
    q.wellFormed = true := by
  unfold defineArg at h
  split at h
  · split at h
    · injection h with h
      injection h with _ h
      subst h
      exact paramsArg_wellFormed ‹_›
    · cases h
  · cases h

theorem modifyArg_wellFormed {bs : List Byte} {k : SlotNo} {q : Params} (h : modifyArg bs = some (k, q)) :
    q.wellFormed = true := by
  unfold modifyArg at h
  split at h
  · split at h
    · injection h with h
      injection h with _ h
      subst h
      exact paramsArg_wellFormed ‹_›
    · cases h
  · cases h

theorem setProfileArg_wellFormed {bs : List Byte} {i : ProfileNo} {pf : Profile}
    (h : setProfileArg bs = some (i, pf)) :
    lengthWellFormed pf.charge = true ∧ lengthWellFormed pf.transfer = true := by
  unfold setProfileArg at h
  split at h
  · split at h
    · split at h
      · injection h with h
        injection h with _ h
        subst h
        simp_all
      · cases h
    · cases h
  · cases h

theorem slotListArg_wellFormed {bs : List Byte} {ks : List SlotNo} (h : slotListArg bs = some ks) :
    slotListWellFormed ks = true := by
  unfold slotListArg at h
  split at h
  · split at h
    · split at h
      · split at h
        · injection h with h
          rwa [← h]
        · cases h
      · cases h
    · cases h
  · cases h

theorem sweepArg_wellFormed {bs : List Byte} {ks : List SlotNo} (h : sweepArg bs = some (.explicit ks)) :
    slotListWellFormed ks = true := by
  unfold sweepArg at h
  split at h
  · split at h
    · split at h <;> cases h
    · split at h
      · cases h
      · simp only [Option.map_eq_some_iff, SweepChoice.explicit.injEq, exists_eq_right] at h
        exact slotListArg_wellFormed h
  · cases h

theorem periodArg_wellFormed {bs : List Byte} {n : Nat} (h : periodArg bs = some n) : periodWellFormed n = true := by
  unfold periodArg at h
  split at h
  · split at h
    · injection h with h
      rwa [← h]
    · cases h
  · cases h

theorem gateArg_wellFormed {bs : List Byte} {g : GateSettings} (h : gateArg bs = some g) : g.wellFormed = true := by
  unfold gateArg at h
  split at h
  · split at h
    · dsimp only at h
      split at h
      · injection h with h
        rwa [← h]
      · cases h
    · cases h
  · cases h

theorem fetchArg_wellFormed {bs : List Byte} {n : Nat} (h : fetchArg bs = some n) :
    fetchCountWellFormed n = true := by
  unfold fetchArg at h
  split at h
  · split at h
    · injection h with h
      rwa [← h]
    · cases h
  · cases h

/-- A one-slot command is accepted only for a DEFINED slot (R199). -/
theorem withSlot_accept {act : SlotNo → SlotRecord → Answer} (h : withSlot s f act = .accept s' payload) :
    ∃ k r, slotArg f.payload = some k ∧ s.slot k = some r ∧ act k r = .accept s' payload := by
  unfold withSlot at h
  split at h
  · cases h
  · split at h
    · cases h
    · exact ⟨_, _, ‹_›, ‹_›, h⟩

theorem State.lowestFree_free {k : SlotNo} (h : s.lowestFree = some k) : s.slot k = none := by
  have := List.find?_some h
  simpa using this

/-- What DEFINE does when accepted (R11). -/
theorem defineAction_accept (h : defineAction p s f = .accept s' payload) :
    ∃ k q, q.wellFormed = true ∧ s.slot k = none ∧ s' = s.setSlot k (some (newRecord p q)) := by
  unfold defineAction at h
  split at h
  · cases h
  · rename_i k q ha
    split at h
    · cases h
    · rename_i hk
      injection h with h _
      exact ⟨k, q, defineArg_wellFormed ha, by simpa using hk, h.symm⟩
  · rename_i q ha
    split at h
    · cases h
    · rename_i k hk
      injection h with h _
      exact ⟨k, q, defineArg_wellFormed ha, s.lowestFree_free hk, h.symm⟩

/-- What MODIFY does when accepted (R12–R16). -/
theorem modifyAction_accept (h : modifyAction p s f = .accept s' payload) :
    ∃ k r q, q.wellFormed = true ∧ s.slot k = some r ∧ r.owner = p ∧ r.inFlight = false ∧ s' = s.applyModify k r q := by
  unfold modifyAction at h
  split at h
  · cases h
  · rename_i k q ha
    split at h
    · cases h
    · rename_i r hr
      split at h
      · cases h
      · split at h
        · cases h
        · injection h with h _
          exact ⟨k, r, q, modifyArg_wellFormed ha, hr, by simp_all, by simp_all, h.symm⟩

/-- What DELETE does when accepted (R17). -/
theorem deleteAction_accept (h : deleteAction p s f = .accept s' payload) :
    ∃ k r, s.slot k = some r ∧ r.owner = p ∧ r.inFlight = false ∧
      s' = (s.cascade k r fun _ => true).setSlot k none := by
  obtain ⟨k, r, -, hr, ha⟩ := withSlot_accept h
  split at ha
  · cases ha
  · split at ha
    · cases ha
    · injection ha with ha _
      exact ⟨k, r, hr, by simp_all, by simp_all, ha.symm⟩

/-- What SUBSCRIBE does when accepted (R18). -/
theorem subscribeAction_accept (h : subscribeAction p s f = .accept s' payload) :
    ∃ k r, s.slot k = some r ∧
      ((r.subs.get p = true ∧ s' = s) ∨
       (r.subs.get p = false ∧ r.params.shared = true ∧ s' = s.setSlot k (some { r with subs := r.subs.set p true }))) := by
  obtain ⟨k, r, -, hr, ha⟩ := withSlot_accept h
  refine ⟨k, r, hr, ?_⟩
  split at ha
  · injection ha with ha _
    exact .inl ⟨‹_›, ha.symm⟩
  · split at ha
    · injection ha with ha _
      exact .inr ⟨by simp_all, ‹_›, ha.symm⟩
    · cases ha

/-- What UNSUBSCRIBE does when accepted (R19). -/
theorem unsubscribeAction_accept (h : unsubscribeAction p s f = .accept s' payload) :
    ∃ k r, s.slot k = some r ∧ r.owner ≠ p ∧
      ((r.subs.get p = false ∧ s' = s) ∨
       (r.subs.get p = true ∧ r.inFlight = false ∧
        s' = (s.setSlot k (some { r with subs := r.subs.set p false })).cascade k r fun x => decide (x = p))) := by
  obtain ⟨k, r, -, hr, ha⟩ := withSlot_accept h
  refine ⟨k, r, hr, ?_⟩
  split at ha
  · cases ha
  · refine ⟨‹_›, ?_⟩
    split at ha
    · injection ha with ha _
      exact .inl ⟨by simp_all, ha.symm⟩
    · split at ha
      · cases ha
      · injection ha with ha _
        exact .inr ⟨by simp_all, by simp_all, ha.symm⟩

/-- What RECALIBRATE does when accepted (R117). -/
theorem recalibrateAction_accept (h : recalibrateAction p s f = .accept s' payload) :
    ∃ k r, s.slot k = some r ∧ r.subs.get p = true ∧
      s' = (s.postForcedRelease k r).setSlot k (some { r with key := KeyFields.initial }) := by
  obtain ⟨k, r, -, hr, ha⟩ := withSlot_accept h
  split at ha
  · injection ha with ha _
    exact ⟨k, r, hr, ‹_›, ha.symm⟩
  · cases ha

/-- READ_SLOT changes nothing (R23). -/
theorem readSlotAction_accept (h : readSlotAction s f = .accept s' payload) : s' = s := by
  obtain ⟨k, r, -, -, ha⟩ := withSlot_accept h
  injection ha with ha _
  exact ha.symm

/-- What SET_PROFILE does when accepted (R82). -/
theorem setProfileAction_accept (h : setProfileAction p s f = .accept s' payload) :
    ∃ i pf, lengthWellFormed pf.charge = true ∧ lengthWellFormed pf.transfer = true ∧
      s.profileNamedBy p.other i = false ∧ s' = { s with profiles := s.profiles.set i.val pf i.isLt } := by
  unfold setProfileAction at h
  split at h
  · cases h
  · rename_i i pf ha
    split at h
    · cases h
    · injection h with h _
      exact ⟨i, pf, (setProfileArg_wellFormed ha).1, (setProfileArg_wellFormed ha).2, by simp_all, h.symm⟩

/-- What SET_STANDING does when accepted (R31). -/
theorem setStandingAction_accept (h : setStandingAction p s f = .accept s' payload) :
    ∃ ks, slotListWellFormed ks = true ∧ s.allDefined ks = true ∧ s.allSubscribed p ks = true ∧
      s' = s.setStanding p ks := by
  unfold setStandingAction at h
  split at h
  · cases h
  · rename_i ks ha
    split at h
    · cases h
    · split at h
      · cases h
      · injection h with h _
        exact ⟨ks, slotListArg_wellFormed ha, by simp_all, by simp_all, h.symm⟩

/-- What SWEEP does when accepted (R32, R33). -/
theorem sweepAction_accept (h : sweepAction p s f = .accept s' payload) :
    ∃ ks, (slotListWellFormed ks = true ∨ ks = s.standing p) ∧ ks ≠ [] ∧ s.allDefined ks = true ∧
      s.allSubscribed p ks = true ∧ (s.requestsOf p).length < Config.requestsPerPort ∧
      s' = (s.addRequest p .command ks).roundStartCheck := by
  unfold sweepAction at h
  split at h
  · cases h
  · rename_i c ha
    dsimp only at h
    split at h
    · cases h
    · split at h
      · cases h
      · split at h
        · cases h
        · split at h
          · cases h
          · injection h with h _
            refine ⟨s.sweepList p c, ?_, by simp_all, by simp_all, by simp_all, by omega, h.symm⟩
            cases c with
            | standing => exact .inr rfl
            | explicit ks => exact .inl (sweepArg_wellFormed ha)

/-- What CANCEL does when accepted (R39). -/
theorem cancelAction_accept (h : cancelAction p s f = .accept s' payload) :
    ∃ id r, r ∈ s.queue ∧ r.id = id ∧ r.port = p ∧ s' = s.walkQueue (cancelFate id) := by
  unfold cancelAction at h
  split at h
  · cases h
  · rename_i id ha
    split at h
    · cases h
    · rename_i r hr
      split at h
      · cases h
      · injection h with h _
        have hid := List.find?_some hr
        exact ⟨id, r, List.mem_of_find?_eq_some hr, by simpa using hid, by simp_all, h.symm⟩

/-- What SET_CADENCE does when accepted (R130–R134). -/
theorem setCadenceAction_accept (h : setCadenceAction p s f = .accept s' payload) :
    ∃ c, ((∃ n, periodWellFormed n = true ∧ c = (s.cadence p).load n) ∨
      (∃ n, periodWellFormed n = true ∧ c = (s.cadence p).stage n) ∨
      c = (s.cadence p).stop ∨ c = (s.cadence p).resume) ∧ s' = s.setCadence p c := by
  unfold setCadenceAction State.acceptCadence at h
  split at h
  · cases h
  · split at h
    · cases h
    · injection h with h _
      exact ⟨_, .inl ⟨_, periodArg_wellFormed ‹_›, rfl⟩, h.symm⟩
  · split at h
    · cases h
    · injection h with h _
      exact ⟨_, .inr (.inl ⟨_, periodArg_wellFormed ‹_›, rfl⟩), h.symm⟩
  · split at h
    · injection h with h _
      exact ⟨_, .inr (.inr (.inl rfl)), h.symm⟩
    · cases h
  · split at h
    · injection h with h _
      exact ⟨_, .inr (.inr (.inr rfl)), h.symm⟩
    · cases h

/-- What SET_GATE does when accepted (R90). -/
theorem setGateAction_accept (h : setGateAction p s f = .accept s' payload) :
    ∃ g, g.wellFormed = true ∧ s.gate.holder ≠ some p.other ∧ s' = s.applyGate p g := by
  unfold setGateAction at h
  split at h
  · cases h
  · rename_i g ha
    split at h
    · cases h
    · injection h with h _
      exact ⟨g, gateArg_wellFormed ha, ‹_›, h.symm⟩

/-- What FETCH does when accepted (R148). -/
theorem fetchAction_accept (h : fetchAction p s f = .accept s' payload) :
    ∃ n, fetchCountWellFormed n = true ∧ s' = s.setEvents p ((s.events p).deliver n) := by
  unfold fetchAction at h
  split at h
  · cases h
  · rename_i n ha
    injection h with h _
    exact ⟨n, fetchArg_wellFormed ha, h.symm⟩

/-- What ACK does when accepted (R150). -/
theorem ackAction_accept (h : ackAction p s f = .accept s' payload) :
    ∃ seq i, (s.events p).ackPlace seq = some i ∧
      s' = s.setEvents p { s.events p with records := (s.events p).records.drop (i + 1) } := by
  unfold ackAction at h
  split at h
  · cases h
  · rename_i seq ha
    split at h
    · cases h
    · rename_i i hi
      injection h with h _
      exact ⟨seq, i, hi, h.symm⟩

/-! ## Every command, every step -/

/-- An edge of xCS# keeps what the host ports' operations keep. -/
theorem Preserved.chipSelectEdge {P : State → Prop} {s t : State} (K : Preserved P) (p : Port) (low : Bool)
    (act : HostPort → HostPort) (hs : P s)
    (h : (Host.Outcome.next (s.chipSelectEdge p low act) : Host.Outcome State Fault Refusal) = .next t) : P t := by
  injection h with h
  subst h
  unfold State.chipSelectEdge
  split
  · exact K.chipSelect _ _ _ ‹_› hs
  · rename_i hr
    exact K.host _ _ _ (by simpa using hr) hs

/-- A property that every operation keeps is kept by every command. -/
theorem Preserved.exec {P : State → Prop} {s t : State} (K : Preserved P) (i : Instr) (hs : P s)
    (h : exec i s = .next t) : P t := by
  cases i with
  | deviceReset =>
    injection h with h
    exact h ▸ K.deviceReset s hs
  | resetRelease quiet =>
    injection h with h
    subst h
    split
    · exact K.release _ _ ‹_› hs
    · exact hs
  | quietLevelChange level => exact whileRunning (f := fun s => s.quietChange level) (fun hr => K.quiet s level hr hs) hs h
  | tick =>
    unfold Machine.exec execTick at h
    exact whileRunning (f := State.timeBaseTick) (fun hr => K.tick s hr hs) hs h
  | cadenceExpiry p => exact whileRunning (f := fun s => s.takeTick p) (fun hr => K.takeTick s p hr hs) hs h
  | transactionStart p =>
    exact K.chipSelectEdge p true HostPort.start hs h
  | transactionEnd p =>
    exact K.chipSelectEdge p false HostPort.finish hs h
  | responsePlacement p =>
    exact whileRunning (f := fun s => s.setHost p ((s.host p).place)) (fun hr => K.host _ _ _ hr hs) hs h
  | serialClockEdge p edge =>
    exact whileRunning (f := fun s => s.setHost p ((s.host p).clock p edge)) (fun hr => K.host _ _ _ hr hs) hs h
  | unknownCode p =>
    unfold Machine.exec execUnknownCode at h
    exact K.runCommand (fun _ _ _ _ _ ha => by cases ha) hs h
  | openSession p =>
    unfold Machine.exec execOpen at h
    refine K.runCommand (fun f s' payload hr _ ha => ?_) hs h
    injection ha with ha _
    subst ha
    exact ⟨K.openSession s p hr hs, by simpa using hr⟩
  | closeSession p =>
    unfold Machine.exec execClose at h
    refine K.runCommand (fun f s' payload hr ho ha => ?_) hs h
    injection ha with ha _
    subst ha
    exact ⟨K.closeSession s p hr (ho rfl) hs, by simpa using hr⟩
  | status p =>
    unfold Machine.exec execStatus at h
    refine K.runCommand (fun f s' payload hr _ ha => ?_) hs h
    injection ha with ha _
    subst ha
    exact ⟨hs, hr⟩
  | resend p =>
    unfold Machine.exec execResend at h
    refine whileRunning (fun hr => ?_) hs h
    split
    · exact hs
    · split
      · unfold State.resendAction
        split
        · exact K.host _ _ _ hr hs
        · exact K.host _ _ _ hr hs
      · exact hs
  | define p =>
    unfold Machine.exec execDefine at h
    refine K.runCommand (fun f s' payload hr ho ha => ?_) hs h
    obtain ⟨k, q, hq, hk, rfl⟩ := defineAction_accept ha
    exact ⟨K.define s p k q hr (ho rfl) hq hk hs, by simpa using hr⟩
  | modify p =>
    unfold Machine.exec execModify at h
    refine K.runCommand (fun f s' payload hr ho ha => ?_) hs h
    obtain ⟨k, r, q, hq, hk, hown, hfl, rfl⟩ := modifyAction_accept ha
    exact ⟨K.modify s p k r q hr (ho rfl) hq hk hown hfl hs, by simpa using hr⟩
  | delete p =>
    unfold Machine.exec execDelete at h
    refine K.runCommand (fun f s' payload hr ho ha => ?_) hs h
    obtain ⟨k, r, hk, hown, hfl, rfl⟩ := deleteAction_accept ha
    exact ⟨K.delete s p k r hr (ho rfl) hk hown hfl hs, by simpa using hr⟩
  | subscribe p =>
    unfold Machine.exec execSubscribe at h
    refine K.runCommand (fun f s' payload hr ho ha => ?_) hs h
    obtain ⟨k, r, hk, ⟨-, rfl⟩ | ⟨hsub, hsh, rfl⟩⟩ := subscribeAction_accept ha
    · exact ⟨hs, hr⟩
    · exact ⟨K.subscribe s p k r hr (ho rfl) hk hsub hsh hs, by simpa using hr⟩
  | unsubscribe p =>
    unfold Machine.exec execUnsubscribe at h
    refine K.runCommand (fun f s' payload hr ho ha => ?_) hs h
    obtain ⟨k, r, hk, hown, ⟨-, rfl⟩ | ⟨hsub, hfl, rfl⟩⟩ := unsubscribeAction_accept ha
    · exact ⟨hs, hr⟩
    · exact ⟨K.unsubscribe s p k r hr (ho rfl) hk hown hsub hfl hs, by simpa using hr⟩
  | readSlot p =>
    unfold Machine.exec execReadSlot at h
    refine K.runCommand (fun f s' payload hr _ ha => ?_) hs h
    rw [readSlotAction_accept ha]
    exact ⟨hs, hr⟩
  | recalibrate p =>
    unfold Machine.exec execRecalibrate at h
    refine K.runCommand (fun f s' payload hr ho ha => ?_) hs h
    obtain ⟨k, r, hk, hsub, rfl⟩ := recalibrateAction_accept ha
    exact ⟨K.recalibrate s p k r hr (ho rfl) hk hsub hs, by simpa using hr⟩
  | setProfile p =>
    unfold Machine.exec execSetProfile at h
    refine K.runCommand (fun f s' payload hr ho ha => ?_) hs h
    obtain ⟨i, pf, hc, ht, hn, rfl⟩ := setProfileAction_accept ha
    exact ⟨K.setProfile s p i pf hr (ho rfl) hc ht hn hs, by simpa using hr⟩
  | setStanding p =>
    unfold Machine.exec execSetStanding at h
    refine K.runCommand (fun f s' payload hr ho ha => ?_) hs h
    obtain ⟨ks, hw, hd, hsub, rfl⟩ := setStandingAction_accept ha
    exact ⟨K.setStanding s p ks hr (ho rfl) hw hd hsub hs, by simpa using hr⟩
  | sweep p =>
    unfold Machine.exec execSweep at h
    refine K.runCommand (fun f s' payload hr ho ha => ?_) hs h
    obtain ⟨ks, hw, hne, hd, hsub, hq, rfl⟩ := sweepAction_accept ha
    exact ⟨K.sweep s p ks hr (ho rfl) hw hne hd hsub hq hs, by simpa using hr⟩
  | cancel p =>
    unfold Machine.exec execCancel at h
    refine K.runCommand (fun f s' payload hr ho ha => ?_) hs h
    obtain ⟨id, r, hm, hid, hp, rfl⟩ := cancelAction_accept ha
    exact ⟨K.cancel s p id r hr (ho rfl) hm hid hp hs, by simpa using hr⟩
  | load p =>
    unfold Machine.exec execLoad at h
    refine K.runCommand (fun f s' payload hr ho ha => ?_) hs h
    obtain ⟨c, hc, rfl⟩ := setCadenceAction_accept ha
    exact ⟨K.setCadence s p c hr (ho rfl) hc hs, by simpa using hr⟩
  | stage p =>
    unfold Machine.exec execStage at h
    refine K.runCommand (fun f s' payload hr ho ha => ?_) hs h
    obtain ⟨c, hc, rfl⟩ := setCadenceAction_accept ha
    exact ⟨K.setCadence s p c hr (ho rfl) hc hs, by simpa using hr⟩
  | stop p =>
    unfold Machine.exec execStop at h
    refine K.runCommand (fun f s' payload hr ho ha => ?_) hs h
    obtain ⟨c, hc, rfl⟩ := setCadenceAction_accept ha
    exact ⟨K.setCadence s p c hr (ho rfl) hc hs, by simpa using hr⟩
  | resume p =>
    unfold Machine.exec execResume at h
    refine K.runCommand (fun f s' payload hr ho ha => ?_) hs h
    obtain ⟨c, hc, rfl⟩ := setCadenceAction_accept ha
    exact ⟨K.setCadence s p c hr (ho rfl) hc hs, by simpa using hr⟩
  | setGate p =>
    unfold Machine.exec execSetGate at h
    refine K.runCommand (fun f s' payload hr ho ha => ?_) hs h
    obtain ⟨g, hg, hh, rfl⟩ := setGateAction_accept ha
    exact ⟨K.setGate s p g hr (ho rfl) hg hh hs, by simpa using hr⟩
  | fetch p =>
    unfold Machine.exec execFetch at h
    refine K.runCommand (fun f s' payload hr ho ha => ?_) hs h
    obtain ⟨n, hn, rfl⟩ := fetchAction_accept ha
    exact ⟨K.fetch s p n hr (ho rfl) hn hs, by simpa using hr⟩
  | ack p =>
    unfold Machine.exec execAck at h
    refine K.runCommand (fun f s' payload hr ho ha => ?_) hs h
    obtain ⟨seq, i, hi, rfl⟩ := ackAction_accept ha
    exact ⟨K.ack s p seq i hr (ho rfl) hi hs, by simpa using hr⟩
  | dischargeEnd l => exact whileRunning (f := fun s => s.setLane l (s.lane l).afterDischarge) (fun hr => K.dischargeEnd s l hr hs) hs h
  | pulsePhaseEnd l => exact whileRunning (f := fun s => s.setLane l (s.lane l).afterPhase) (fun hr => K.phaseEnd s l hr hs) hs h
  | transferPhaseEnd l crossed => exact whileRunning (f := fun s => s.setLane l ((s.lane l).afterTransfer crossed)) (fun hr => K.transferEnd s l crossed hr hs) hs h
  | pulseEnd l => exact whileRunning (f := fun s => s.lanePulseEnd l) (fun hr => K.pulseEnd s l hr hs) hs h

/-- A property that every operation keeps is kept by every step. -/
theorem Preserved.step {P : State → Prop} {s t : State} (K : Preserved P) (hs : P s) (h : step s = .next t) : P t := by
  unfold Machine.step at h
  split at h
  · injection h with h
    exact h ▸ hs
  · exact K.exec _ (K.pending _ _ hs) h

end Sys2Proof.Machine
end

