-- ==== Sys2Proof/Laws/Events.lean ====
section
/-! SUPPORT. What an action can do to the event queues: `Posted` says once that it posts some events to each port's queue,
all at the present tick (R125, R146), and the queue's own operations keep its numbering and its delivered prefix (R139). -/

namespace Sys2Proof.Machine

/-! ## The queue -/

namespace EventQueue

variable (q : EventQueue)

/-- R139, for one queue: at most 24 records, numbers rising by one, the delivered records a prefix. -/
structure Good : Prop where
  length : q.records.length ≤ Config.eventCapacity
  rises : q.seqRises
  delivered : q.deliveredPrefix

@[simp] theorem good_empty : Good { records := [], nextSeq := 0 } :=
  ⟨by simp, by intro i h; simp at h, by simp [deliveredPrefix]⟩

theorem markTail_length (rs : List EventRecord) : (markTail rs).length = rs.length := by
  induction rs using markTail.induct <;> simp_all [markTail]

theorem markTail_seq (rs : List EventRecord) : (markTail rs).map (·.seq) = rs.map (·.seq) := by
  induction rs using markTail.induct <;> simp_all [markTail]

theorem markTail_delivered (rs : List EventRecord) : (markTail rs).map (·.delivered) = rs.map (·.delivered) := by
  induction rs using markTail.induct <;> simp_all [markTail]

theorem markTail_event (rs : List EventRecord) : (markTail rs).map (·.event) = rs.map (·.event) := by
  induction rs using markTail.induct <;> simp_all [markTail]

theorem seqRises_iff :
    q.seqRises ↔ ∀ (i : Nat) (h : i < (q.records.map (·.seq)).length),
      (q.records.map (·.seq))[i] = q.nextSeq - BitVec.ofNat 16 ((q.records.map (·.seq)).length - i) := by
  unfold seqRises
  simp

theorem deliveredPrefix_iff :
    q.deliveredPrefix ↔ (q.records.map (·.delivered)).Pairwise fun d d' => d' = true → d = true := by
  unfold deliveredPrefix
  rw [List.pairwise_map]

/-- A queue with the same numbers and delivered marks keeps R139. -/
theorem Good.of_maps {q q' : EventQueue} (hq : q.Good) (hn : q'.nextSeq = q.nextSeq)
    (hs : q'.records.map (·.seq) = q.records.map (·.seq))
    (hd : q'.records.map (·.delivered) = q.records.map (·.delivered)) : q'.Good := by
  refine ⟨?_, ?_, ?_⟩
  · have := congrArg List.length hs
    simp only [List.length_map] at this
    rw [this]
    exact hq.length
  · rw [seqRises_iff, hn]
    simp only [hs]
    exact (seqRises_iff q).mp hq.rises
  · rw [deliveredPrefix_iff, hd]
    exact (deliveredPrefix_iff q).mp hq.delivered

/-- A stored record takes the next number and joins the tail undelivered (R144). -/
theorem Good.store {q : EventQueue} (hq : q.Good) (hl : q.records.length < Config.eventCapacity) (e : Event) (t : Word) :
    (q.store e t).Good := by
  refine ⟨by simpa [EventQueue.store] using hl, ?_, ?_⟩
  · intro i h
    simp only [EventQueue.store, List.length_append, List.length_cons, List.length_nil] at h ⊢
    by_cases hi : i < q.records.length
    · rw [List.getElem_append_left hi, hq.rises i hi]
      have : q.records.length + (0 + 1) - i = (q.records.length - i) + 1 := by omega
      rw [this, BitVec.ofNat_add]
      bv_omega
    · have hi' : i = q.records.length := by omega
      subst hi'
      simp
  · simp only [deliveredPrefix, EventQueue.store, List.pairwise_append]
    refine ⟨hq.delivered, by simp, by simp⟩

/-- A posting keeps R139 (R144, R145). -/
theorem Good.post {q : EventQueue} (hq : q.Good) (e : Event) (t : Word) : (q.post e t).Good := by
  unfold EventQueue.post
  split
  · exact hq.store ‹_› e t
  · exact hq.of_maps rfl (markTail_seq _) (markTail_delivered _)

theorem Good.posts {q : EventQueue} (hq : q.Good) (es : List Event) (t : Word) :
    (es.foldl (fun Q e => Q.post e t) q).Good := by
  induction es generalizing q with
  | nil => exact hq
  | cons e es ih => exact ih (hq.post e t)

/-- FETCH keeps R139: it marks from the head onward (R148). -/
theorem Good.deliver {q : EventQueue} (hq : q.Good) (n : Nat) : (q.deliver n).Good := by
  have hs : (q.deliver n).records.map (·.seq) = q.records.map (·.seq) := by
    conv_rhs => rw [← List.take_append_drop n q.records, List.map_append]
    simp [EventQueue.deliver, Function.comp_def]
  refine ⟨?_, ?_, ?_⟩
  · have := congrArg List.length hs
    simp only [List.length_map] at this
    rw [this]
    exact hq.length
  · rw [seqRises_iff]
    simp only [hs]
    exact (seqRises_iff q).mp hq.rises
  · have hd := hq.delivered
    unfold deliveredPrefix at hd ⊢
    rw [← List.take_append_drop n q.records, List.pairwise_append] at hd
    simp only [EventQueue.deliver, List.pairwise_append, List.pairwise_map]
    refine ⟨by simp [List.pairwise_iff_getElem], hd.2.1, ?_⟩
    intro a ha
    obtain ⟨_, _, rfl⟩ := List.mem_map.mp ha
    simp

/-- ACK keeps R139: it removes records from the head (R150). -/
theorem Good.drop {q : EventQueue} (hq : q.Good) (n : Nat) : Good { q with records := q.records.drop n } := by
  refine ⟨?_, ?_, ?_⟩
  · have := hq.length
    simp only [List.length_drop]
    omega
  · intro i h
    simp only [List.length_drop] at h
    simp only [List.getElem_drop, List.length_drop]
    rw [hq.rises (n + i) (by omega)]
    congr 2
    omega
  · exact hq.delivered.sublist (List.drop_sublist n q.records)

end EventQueue

/-! ## Posted -/

/-- From `s` to `t` some events are posted to each port, one by one, all at the tick of `s`; the sessions stand as they
were (R143, R146). -/
def Posted (s t : State) : Prop :=
  t.tick = s.tick ∧ ∀ q : Port, t.session q = s.session q ∧ ∃ es : List Event,
    t.events q =
      if (s.session q).isOpen = true then es.foldl (fun Q e => Q.post e s.tick) (s.events q) else s.events q

namespace Posted

variable {s t u : State}

theorem of_eq (ht : t.tick = s.tick) (hs : ∀ q, t.session q = s.session q) (he : ∀ q, t.events q = s.events q) :
    Posted s t := ⟨ht, fun q => ⟨hs q, [], by simp [he q]⟩⟩

theorem refl (s : State) : Posted s s := of_eq rfl (fun _ => rfl) fun _ => rfl

theorem trans (h : Posted s t) (h' : Posted t u) : Posted s u := by
  refine ⟨h'.1.trans h.1, fun q => ⟨(h'.2 q).1.trans (h.2 q).1, ?_⟩⟩
  obtain ⟨es, he⟩ := (h.2 q).2
  obtain ⟨es', he'⟩ := (h'.2 q).2
  refine ⟨es ++ es', ?_⟩
  rw [he', (h.2 q).1, he, h.1]
  by_cases ho : (s.session q).isOpen <;> simp [ho, List.foldl_append]

theorem post (s : State) (p : Port) (e : Event) : Posted s (s.post p e) := by
  refine ⟨by simp, fun q => ⟨by simp, if q = p then [e] else [], ?_⟩⟩
  rw [State.post_events]
  by_cases hq : q = p
  · subst hq
    by_cases ho : (s.session q).isOpen <;> simp [ho]
  · simp [hq]

theorem postAll (s : State) (es : List (Port × Event)) : Posted s (s.postAll es) := by
  induction es generalizing s with
  | nil => exact refl s
  | cons pe es ih => exact (post s pe.1 pe.2).trans (ih _)

theorem postSubs (s : State) (subs : PerPort Bool) (e : Event) : Posted s (s.postSubs subs e) := postAll _ _

theorem walkQueue (s : State) (fate : SweepRequest → Fate) : Posted s (s.walkQueue fate) :=
  (of_eq (t := { s with queue := s.queue.filterMap fun r => (fate r).kept }) rfl (fun _ => rfl) fun _ => rfl).trans
    (postAll _ _)

theorem cascade (s : State) (k : SlotNo) (r : SlotRecord) (losing : Port → Bool) : Posted s (s.cascade k r losing) := by
  have strip : ∀ (u : State) (p : Port) (b : Bool), Posted u (if b then u.stripStanding k p else u) := by
    intro u p b
    cases b
    · exact refl u
    · exact of_eq (by simp) (by simp) (by simp)
  have last : ∀ (u : State) (p : Port) (e : Event) (b : Bool), Posted u (if b then u.post p e else u) := by
    intro u p e b
    cases b
    · exact refl u
    · exact post u p e
  unfold State.cascade
  dsimp only
  refine trans (strip s .a (losing .a)) (trans (strip _ .b (losing .b)) (trans (walkQueue _ (cascadeFate k losing)) ?_))
  exact last _ _ _ _

theorem setSlot (s : State) (k : SlotNo) (r : Option SlotRecord) : Posted s (s.setSlot k r) :=
  of_eq (by simp) (by simp) (by simp)

theorem roundStartCheck (s : State) : Posted s s.roundStartCheck := of_eq (by simp) (by simp) (by simp)

theorem handReading (s : State) (k : SlotNo) (rd : Reading) : Posted s (s.handReading k rd) := by
  unfold State.handReading
  split
  · exact refl s
  · dsimp only
    split <;> split
    · exact (setSlot _ _ _).trans (postSubs _ _ _)
    · exact setSlot _ _ _
    · exact (setSlot _ _ _).trans ((postSubs _ _ _).trans (postSubs _ _ _))
    · exact (setSlot _ _ _).trans (postSubs _ _ _)

theorem handLanes (round : Round) (ls : List LaneNo) (s : State) : Posted s (ls.foldl (State.handLane round) s) := by
  induction ls generalizing s with
  | nil => exact refl s
  | cons l ls ih =>
    refine trans ?_ (ih _)
    unfold State.handLane
    split
    · exact handReading _ _ _
    · exact refl s

theorem clearRound (s : State) (round : Round) : Posted s (s.clearRound round) := of_eq (by simp) (by simp) (by simp)

theorem idleLanes (s : State) : Posted s s.idleLanes := of_eq (by simp) (by simp) (by simp)

theorem completeRound (s : State) (round : Round) : Posted s (s.completeRound round) :=
  (handLanes round _ s).trans ((walkQueue _ _).trans ((clearRound _ _).trans (roundStartCheck _)))

theorem abortRound (s : State) (round : Round) : Posted s (s.abortRound round) :=
  (walkQueue s _).trans ((clearRound _ _).trans ((idleLanes _).trans (roundStartCheck _)))

theorem formObserved (s : State) : Posted s s.formObserved := by
  unfold State.formObserved
  dsimp only
  refine trans (t := { s with gate := { s.gate with observed := observedState s.gate.settings s.gate.line } })
    (of_eq rfl (fun _ => rfl) fun _ => rfl) ?_
  split
  · split
    · exact abortRound _ _
    · exact refl _
  · exact roundStartCheck _
  · exact refl _

theorem quietChange (s : State) (level : Level) : Posted s (s.quietChange level) :=
  trans (t := { s with gate := { s.gate with line := level } }) (of_eq rfl (fun _ => rfl) fun _ => rfl) (formObserved _)

theorem applyGate (s : State) (p : Port) (g : GateSettings) : Posted s (s.applyGate p g) :=
  trans (t := { s with gate := { s.gate with settings := g, holder := if g.enabled then some p else none } })
    (of_eq rfl (fun _ => rfl) fun _ => rfl) ((formObserved _).trans (roundStartCheck _))

theorem postForcedRelease (s : State) (k : SlotNo) (r : SlotRecord) : Posted s (s.postForcedRelease k r) := by
  unfold State.postForcedRelease
  split
  · exact refl s
  · exact postSubs _ _ _

theorem unshare (s : State) (k : SlotNo) (old r : SlotRecord) : Posted s (s.unshare k old r) := by
  unfold State.unshare
  split
  · exact (setSlot _ _ _).trans (cascade _ _ _ _)
  · exact refl s

theorem applyModify (s : State) (k : SlotNo) (r : SlotRecord) (new : Params) : Posted s (s.applyModify k r new) := by
  unfold State.applyModify
  dsimp only
  split
  · exact (postForcedRelease _ _ _).trans ((setSlot _ _ _).trans (unshare _ _ _ _))
  · exact (setSlot _ _ _).trans (unshare _ _ _ _)

theorem addRequest (s : State) (p : Port) (o : Origin) (ks : List SlotNo) : Posted s (s.addRequest p o ks) :=
  of_eq rfl (fun _ => rfl) fun _ => rfl

theorem expiryAtQueue (s : State) (p : Port) : Posted s (s.expiryAtQueue p) := by
  unfold State.expiryAtQueue
  split
  · exact refl s
  · split
    · exact post _ _ _
    · split
      · exact post _ _ _
      · exact (addRequest _ _ _ _).trans (roundStartCheck _)

theorem takeTick (s : State) (p : Port) : Posted s (s.takeTick p) := by
  unfold State.takeTick
  dsimp only
  split
  · split
    · exact of_eq (by simp) (by simp) (by simp)
    · exact (of_eq (by simp) (by simp) (by simp)).trans (expiryAtQueue _ _)
  · exact refl s

theorem completionCheck (s : State) : Posted s s.completionCheck := by
  unfold State.completionCheck
  split
  · exact refl s
  · split
    · exact completeRound _ _
    · exact refl s

theorem lanePulseEnd (s : State) (l : LaneNo) : Posted s (s.lanePulseEnd l) := by
  unfold State.lanePulseEnd
  dsimp only
  split
  · exact (of_eq (by simp) (by simp) (by simp)).trans (completionCheck _)
  · exact of_eq (by simp) (by simp) (by simp)

/-- A posting keeps R139 at each queue, and leaves the queue of a CLOSED port as it was (R143). -/
theorem good (h : Posted s t) {q : Port} (hq : (s.events q).Good) : (t.events q).Good := by
  obtain ⟨es, he⟩ := (h.2 q).2
  rw [he]
  split
  · exact hq.posts es s.tick
  · exact hq

theorem closed (h : Posted s t) {q : Port} (hc : (s.session q).isOpen = false) : t.events q = s.events q := by
  obtain ⟨es, he⟩ := (h.2 q).2
  simp [he, hc]

end Posted

end Sys2Proof.Machine
end

