-- ==== Sys2Proof/Tests/Slice0.lean ====
section
/-! SUPPORT. The model's own tests: what `WellFormed` refuses, the examples the spec works out, one step of each command,
and for every statement with hypotheses a state that meets them. -/

namespace Sys2Proof.Tests

open Sys2Proof.Machine

-- The tests run one after another: a `decide +kernel` that waits for the kernel holds a thread of its own.
set_option Elab.async false

/-! ## A small hub to test on -/

/-- Parameters of a slot on lane `l`, with the settings of the example of 12.3. -/
def params (l : LaneNo) (shared stream : Bool) : Params :=
  { lane := l, pads := 1, profile := 0, limit := 2000, touch := 50, release := 30, debounce := 2, drift := 3, hold := 0,
    shared := shared, stream := stream }

/-- A slot of owner `p`; `both`: the other port subscribes as well. -/
def slotOf (p : Port) (q : Params) (both : Bool) : SlotRecord :=
  { newRecord p q with subs := if both then { a := true, b := true } else onlySub p }

def openPort : PortState := { PortState.reset with session := { isOpen := true, number := 1, counter := 1 } }

/-- Both sessions OPEN. Slot 0 is A's, on L0, shared with B; slot 1 is A's, on L1; slot 2 is B's, on L2, shareable. -/
def demo : State :=
  { State.reset with
    resetLow := false
    ports := { a := openPort, b := openPort }
    slots := ((State.reset.slots.set 0 (some (slotOf .a (params 0 true true) true))).set 1
      (some (slotOf .a (params 1 false false) false))).set 2 (some (slotOf .b (params 2 true false) false)) }

/-- Both sessions CLOSED. -/
def closed : State := { State.reset with resetLow := false }

/-- RESET# has risen while Port B's xCS# was low. -/
def csHeld : State := demo.setHost .b { HostPort.reset with csLow := true, sdo := some true }

/-- Port `p` has taken a frame of these bytes, with a CRC that is right. -/
def taking (s : State) (p : Port) (code : Byte) (payload : List Byte) : State :=
  s.setHost p { HostPort.reset with work := .taken (soundFrame code 0x41 payload) }

/-- A request as admission makes it. -/
def request (id : Nat) (p : Port) (ks : List SlotNo) : SweepRequest := newRequest id p 1 .command ks

def engaged (r : SweepRequest) (ks : List SlotNo) : SweepRequest := { r with engaged := ks }

/-- A lane converting slot `k`, in state `st`. -/
def laneAt (k : SlotNo) (st : LaneState) : Lane :=
  { state := st, slot := some k, pads := 1, charge := some 24, transfer := some 24, limit := some 2000, counter := 0,
    reading := none, elapsed := 0 }

def demoRound : Round := { lanes := #v[some 0, some 1, none, none], leader := .a }

/-- A round of A's request 9 on slots 0 and 1: L0 in the trailing gap after its 1999th transfer phase, L1 ended with
the reading 500. -/
def inRound : State :=
  { (demo.markInFlight demoRound true) with
    queue := [engaged (request 9 .a [0, 1]) [0, 1]]
    round := some demoRound
    lastLeader := some .a
    nextId := 10
    lanes := #v[{ laneAt 0 (.pulsing (.gapAfterTransfer false)) with counter := 1999, elapsed := 104066 },
      { laneAt 1 .ended with counter := 500, reading := some (crossingReading 500), elapsed := 26120 },
      Lane.idle, Lane.idle] }

/-- The state after a step, and what the port has answered. -/
def after (o : Host.Outcome State Fault Refusal) : State :=
  match o with
  | .next t => t
  | _ => State.reset

def answered (s : State) (p : Port) : Option (Status × List Byte) :=
  match (s.host p).work with
  | .answered r => some (r.response.status, r.response.payload)
  | _ => none

/-- The answer of port `p` to a command. -/
def ask (i : Instr) (s : State) (p : Port) : Option (Status × List Byte) := answered (after (exec i s)) p

theorem soundFrame_crcOk (code tag : Byte) (payload : List Byte) : (soundFrame code tag payload).crcOk = true := by
  simp [Frame.crcOk, Frame.body, soundFrame]

theorem taking_executes {s : State} (h : s.resetLow = false) (p : Port) (code : Byte) (payload : List Byte) :
    (taking s p code payload).Executes p (soundFrame code 0x41 payload) code where
  running := by simp [taking, h]
  taken := by simp [taking]
  code_eq := rfl
  crc := soundFrame_crcOk _ _ _

theorem taking_executesOpen {s : State} (h : s.resetLow = false) {p : Port} (ho : (s.session p).isOpen = true)
    (code : Byte) (payload : List Byte) :
    (taking s p code payload).ExecutesOpen p (soundFrame code 0x41 payload) code where
  toExecutes := taking_executes h p code payload
  isOpen := by simpa [taking] using ho

/-! ## What `WellFormed` refuses: one ill-formed term for each check -/

theorem test_params_wellFormed : (params 0 true true).wellFormed = true := by decide
theorem test_params_no_pads : ({ params 0 true true with pads := 0 } : Params).wellFormed = false := by decide
theorem test_params_limit : ({ params 0 true true with limit := 63 } : Params).wellFormed = false ∧
    ({ params 0 true true with limit := 30001 } : Params).wellFormed = false := by decide
theorem test_params_touch : ({ params 0 true true with touch := 4001 } : Params).wellFormed = false ∧
    ({ params 0 true true with touch := 0, release := 0 } : Params).wellFormed = false := by decide
theorem test_params_release : ({ params 0 true true with release := 0 } : Params).wellFormed = false ∧
    ({ params 0 true true with release := 51 } : Params).wellFormed = false := by decide
theorem test_params_debounce : ({ params 0 true true with debounce := 0 } : Params).wellFormed = false ∧
    ({ params 0 true true with debounce := 9 } : Params).wellFormed = false := by decide
theorem test_params_drift : ({ params 0 true true with drift := 256 } : Params).wellFormed = false := by decide
theorem test_params_hold : ({ params 0 true true with hold := 256 } : Params).wellFormed = false := by decide
theorem test_length : lengthWellFormed 1 = false ∧ lengthWellFormed 2 = true ∧ lengthWellFormed 64 = true ∧
    lengthWellFormed 65 = false := by decide
theorem test_period : periodWellFormed 4 = false ∧ periodWellFormed 5 = true ∧ periodWellFormed 50000 = true ∧
    periodWellFormed 50001 = false := by decide
theorem test_gate_settings :
    ({ enabled := true, openLevel := .low, abortLimit := 0 } : GateSettings).wellFormed = false ∧
    ({ enabled := true, openLevel := .low, abortLimit := 8 } : GateSettings).wellFormed = true ∧
    ({ enabled := true, openLevel := .low, abortLimit := 9 } : GateSettings).wellFormed = false := by decide
theorem test_slot_list : slotListWellFormed [0, 31] = true ∧ slotListWellFormed [3, 3] = false := by decide
theorem test_slot_list_length : slotListWellFormed (List.replicate 33 0) = false := by decide
theorem test_fetch_count : fetchCountWellFormed 0 = false ∧ fetchCountWellFormed 8 = true ∧
    fetchCountWellFormed 9 = false := by decide

/-! ## The spec's own examples -/

/-- R178: a STATUS command with tag 0x01 is the bytes 0x03, 0x01, 0x00, 0xF4. -/
theorem test_crc_example : frameBytes (soundFrame 0x03 0x01 []) = [0x03, 0x01, 0x00, 0xF4] := by decide +kernel

theorem test_crc_example_read :
    (readFrame [0x03, 0x01, 0x00, 0xF4, 0xFF]).map (·.crcOk) = some true ∧
    (readFrame [0x03, 0x01, 0x00, 0xF5]).map (·.crcOk) = some false := by decide +kernel

/-- The key fields of a slot in IDLE with baseline `b` and all counts 0 (12.3). -/
def idleKey (b : Nat) : KeyFields := { KeyFields.initial with state := .idle, baseline := some b }

/-- 12.3, third row: the drift count reaches the interval 3, and the baseline moves one count. -/
theorem test_drift_step : takeReading (params 0 true true) { idleKey 800 with drift := 2 } (crossingReading 806) =
    (idleKey 801, none) := by decide

/-- 12.3, fourth row: delta 53 brings ARMING. -/
theorem test_arming : (takeReading (params 0 true true) (idleKey 801) (crossingReading 748)).1.state = .arming := by decide

/-- 12.3, sixth row: the confirming reading after a bad one posts PRESS with 56. -/
theorem test_press :
    takeReading (params 0 true true) { idleKey 801 with state := .arming, confirm := 1, badRun := 1 }
      (crossingReading 745) = ({ idleKey 801 with state := .held }, some (pressEvent 56)) := by decide

/-- 12.3, eleventh row: RELEASE with 3. -/
theorem test_release :
    takeReading (params 0 true true) { idleKey 801 with state := .lifting, confirm := 1, hold := 4 }
      (crossingReading 798) = (idleKey 801, some (releaseEvent 3 false)) := by decide

/-- 6, Example: the readings 540, 536, 544 and 540 calibrate to 540. -/
theorem test_calibration : takeReading (params 0 true true) { KeyFields.initial with calSum := 1620, calCount := 3 }
      (crossingReading 540) = (idleKey 540, some (calDoneEvent 540)) := by decide

/-- 2.3, Example: the ids run from 254 over 255 to 1, past those that queued requests hold. -/
theorem test_ids_wrap : ({ demo with nextId := 255, queue := [request 255 .a [0], request 1 .b [2], request 3 .b [0]] } : State).freeSweepId = 2 := by
  decide +kernel

/-! ## One step of each command -/

/-- R65: device reset from the middle of a round. -/
theorem test_deviceReset : after (exec .deviceReset inRound) = State.reset := by decide +kernel

/-- R86: the line level is the one at which QUIET stands. -/
theorem test_resetRelease : (after (exec (.resetRelease .high) State.reset)).gate.line = .high := by decide +kernel

/-- R174: xSDO is tri-stated while RESET# is low, and driven from its rise where xCS# is low already; no transaction is in
progress there. -/
theorem test_chipSelect_low_at_release :
    let low := after (exec (.transactionStart .a) State.reset)
    let up := after (exec (.resetRelease .high) low)
    (low.host .a).sdo = none ∧ ((up.host .a).sdo).isSome = true ∧ (up.host .b).sdo = none ∧
    (up.host .a).transaction = none := by decide +kernel

/-- R174: the first transaction begins at the next falling edge of xCS#. -/
theorem test_chipSelect_rise_then_fall :
    let risen := after (exec (.transactionEnd .b) csHeld)
    (after (exec (.transactionStart .b) csHeld)) = csHeld ∧ (risen.host .b).sdo = none ∧
    (((after (exec (.transactionStart .b) risen)).host .b).transaction).isSome = true := by decide +kernel

/-- R96: a round runs, the gate is enabled with open level HIGH, and QUIET falls. -/
theorem test_quietLevelChange :
    let t := after (exec (.quietLevelChange .low)
      { inRound with gate := { settings := { enabled := true, openLevel := .high, abortLimit := 3 }
                               holder := some .a, line := .high, observed := .opened } })
    t.round = none ∧ t.gate.observed = .shut ∧ t.queue.map (·.aborts) = [1] ∧ (t.lane 1).state = .idle := by decide +kernel

/-- R124: 65535 is followed by 0. -/
theorem test_tick : (after (exec .tick { demo with tick := 0xFFFF })).tick = 0 := by decide +kernel

/-- R128: at 1 the counter is reloaded and the expiry admits a request of the standing list. -/
theorem test_cadenceExpiry :
    let t := after (exec (.cadenceExpiry .a)
      ((demo.setStanding .a [1]).setCadence .a { running := true, counter := 1, latch := 7, owed := 1 }))
    (t.cadence .a).counter = 7 ∧ t.queue.map (fun r => (r.id, r.origin, r.engaged)) = [(1, .timer, [1])] := by decide +kernel

/-- R175: a port that is executing answers BUSY, whose first bit is the first of 0x3C. -/
theorem test_transactionStart :
    let h := (after (exec (.transactionStart .b) (taking demo .b 0x03 []))).host .b
    h.transaction = some { marker := .busy, received := [], bits := [] } ∧ h.sdo = some false := by decide +kernel

/-- R180: a complete frame is taken. -/
theorem test_transactionEnd :
    ((after (exec (.transactionEnd .a)
      (demo.setHost .a { HostPort.reset with
        csLow := true
        transaction := some { marker := .none, received := [0x03, 0x01, 0x00, 0xF4, 0xFF], bits := [true] }
        sdo := some true }))).host .a).work = .taken (soundFrame 0x03 0x01 []) := by decide +kernel

/-- R181: the placement fills the buffer and clears the executing flag. -/
theorem test_responsePlacement :
    let h := (after (exec (.responsePlacement .a) (demo.respond .a 0x41 .ok [7]))).host .a
    h.work = .none ∧ h.buffer.map (fun r => (r.response.session, r.response.payload)) = some (1, [7]) := by decide +kernel

/-- R182: 0x17 is no command code. -/
theorem test_unknownCode : ask (.unknownCode .a) (taking demo .a 0x17 []) .a = some (.unknown, []) := by decide +kernel

/-- R161, R192: the number of the new session, and the payload of 12 bytes. -/
theorem test_openSession :
    ((after (exec (.openSession .a) (taking demo .a 0x01 []))).session .a).number = 2 ∧
    ask (.openSession .a) (taking closed .a 0x01 []) .a =
      some (.ok, [0x23, 0x40, 0x01, 32, 4, 5, 4, 3, 24, 8, 60, 120]) := by decide +kernel

/-- R164, R167: the closed port leaves the other port's slots, and keeps its own. -/
theorem test_closeSession :
    let t := after (exec (.closeSession .b) (taking demo .b 0x02 []))
    t.session .b = { isOpen := false, number := 0, counter := 1 } ∧
    (t.slot 0).map (·.subs) = some { a := true, b := false } ∧ (t.slot 2).map (·.subs) = some { a := false, b := true } := by
  decide +kernel

/-- R195: 41 bytes with no request queued; the answer of a CLOSED port too. -/
theorem test_status : (ask (.status .a) (taking closed .a 0x03 []) .a).map (·.2.length) = some 41 := by decide +kernel

/-- R185: with no copy, NOTFOUND. -/
theorem test_resend : ask (.resend .a) (taking closed .a 0x04 []) .a = some (.notFound, []) := by decide +kernel

/-- R10: 0xFF takes the lowest FREE slot, here slot 3. -/
theorem test_define :
    ask (.define .b) (taking demo .b 0x10 (0xFF :: paramsBytes (params 3 false true))) .b = some (.ok, [3]) := by
  decide +kernel

/-- R13: another touch threshold is a detection-only change, another pad set a measurement change. -/
theorem test_modify :
    ask (.modify .a) (taking demo .a 0x11 (0 :: paramsBytes { params 0 true true with touch := 60 })) .a = some (.ok, [1]) ∧
    ask (.modify .a) (taking demo .a 0x11 (0 :: paramsBytes { params 0 true true with pads := 3 })) .a = some (.ok, [2]) := by
  decide +kernel

/-- R17, R21: the slot is FREE, and the subscribed non-owner is told. -/
theorem test_delete :
    let t := after (exec (.delete .a) (taking demo .a 0x12 [0]))
    t.slot 0 = none ∧ (t.events .b).records.map (·.event) = [keyEvent 0 .slotGone 0 false false] := by decide +kernel

/-- Port B's request 9 is engaged on slot 2, holds slot 0 as well, and is stale after a CLOSE of B. -/
def afterClose : State :=
  after (exec (.closeSession .b) (taking ({ demo with queue := [engaged (request 9 .b [2, 0]) [2]] } : State) .b 0x02 []))

/-- R172: after the teardown the DELETE posts the former subscriber nothing and leaves it neither slot nor list; log 16: its
stale request is stripped as R17, R20 and R28 say. -/
theorem test_delete_after_teardown :
    let t := after (exec (.delete .a) (taking afterClose .a 0x12 [0]))
    afterClose.queue.map (·.stale) = [true] ∧ t.slot 0 = none ∧ (t.events .b).records = [] ∧ t.standing .b = [] ∧
    t.queue.map (·.remaining) = [[2]] ∧ t.queue.map (·.skipped) = [1] := by decide +kernel

/-- R18: a slot that is not shared is DENIED, a shared one gains the subscriber. -/
theorem test_subscribe :
    ask (.subscribe .b) (taking demo .b 0x13 [1]) .b = some (.denied, []) ∧
    ((after (exec (.subscribe .a) (taking demo .a 0x13 [2]))).slot 2).map (·.subs) = some { a := true, b := true } := by
  decide +kernel

/-- R19: the owner cannot unsubscribe. -/
theorem test_unsubscribe :
    ask (.unsubscribe .a) (taking demo .a 0x14 [0]) .a = some (.denied, []) ∧
    ((after (exec (.unsubscribe .b) (taking demo .b 0x14 [0]))).slot 0).map (·.subs) = some { a := true, b := false } := by
  decide +kernel

/-- R189: the snapshot of slot 0 as DEFINE and SUBSCRIBE left it. -/
theorem test_readSlot : ask (.readSlot .b) (taking demo .b 0x15 [0]) .b =
    some (.ok, [0, 0, 3, 0, 1, 0, 0x07, 0xD0, 0, 50, 0, 30, 2, 3, 0, 3, 0, 0, 0, 0, 0, 0, 0, 0, 0, 0, 0, 0, 0]) := by
  decide +kernel

/-- R117: a pressed key is released by force. -/
theorem test_recalibrate :
    let pressed := { slotOf .a (params 1 false false) false with
      key := { idleKey 612 with state := .held }
      last := some { reading := crossingReading 560, tick := 0 } }
    ((after (exec (.recalibrate .a) (taking (demo.setSlot 1 (some pressed)) .a 0x16 [1]))).events .a).records.map (·.event) =
      [keyEvent 1 .release 52 true false] := by decide +kernel

/-- R82: a profile that a slot of the other port names is DENIED. -/
theorem test_setProfile :
    ask (.setProfile .a) (taking demo .a 0x18 [0, 2, 64]) .a = some (.denied, []) ∧
    (after (exec (.setProfile .a) (taking demo .a 0x18 [3, 2, 64]))).profiles[3] = { charge := 2, transfer := 64 } := by
  decide +kernel

theorem test_setStanding : (after (exec (.setStanding .b) (taking demo .b 0x20 [2, 2, 0]))).standing .b = [2, 0] := by
  decide +kernel

/-- R33, R49: the request is engaged before its response is placed. -/
theorem test_sweep :
    let t := after (exec (.sweep .a) (taking demo .a 0x21 [2, 1, 0]))
    answered t .a = some (.ok, [1]) ∧ t.queue = [engaged (request 1 .a [1, 0]) [1, 0]] ∧ (t.lane 1).slot = some 1 := by
  decide +kernel

/-- R39: an engaged request is marked and stays. -/
theorem test_cancel :
    (after (exec (.cancel .a) (taking inRound .a 0x22 [9]))).queue.map (·.cancelling) = [true] := by decide +kernel

/-- R205: the state, the counter and the latch as LOAD 5 leaves them. -/
theorem test_load : ask (.load .a) (taking demo .a 0x28 [1, 0, 5]) .a = some (.ok, [1, 0, 5, 0, 5]) := by decide +kernel

theorem test_stage : ask (.stage .a) (taking demo .a 0x28 [2, 0, 5]) .a = some (.ok, [0, 0x03, 0xE8, 0, 5]) := by
  decide +kernel

theorem test_stop : ask (.stop .a) (taking demo .a 0x28 [3, 0, 0]) .a = some (.ok, [0, 0x03, 0xE8, 0x03, 0xE8]) := by
  decide +kernel

theorem test_resume : ask (.resume .a) (taking demo .a 0x28 [4, 0xFF, 0xFF]) .a =
    some (.ok, [1, 0x03, 0xE8, 0x03, 0xE8]) := by decide +kernel

/-- R206: QUIET stands LOW and the open level is HIGH, so the gate goes SHUT; its holder is A. -/
theorem test_setGate : ask (.setGate .a) (taking demo .a 0x30 [1, 1, 3]) .a = some (.ok, [0, 0]) := by decide +kernel

/-- R207: k, the queue's length, the undelivered, and one record of 12 bytes. -/
theorem test_fetch :
    ask (.fetch .b) (taking (demo.post .b (sweepEvent .cadenceSlip 41 1 none)) .b 0x38 [8]) .b =
      some (.ok, [1, 1, 0, 0, 0, 0x18, 0xFF, 41, 0, 0, 1, 0xFF, 0xFF, 0, 0]) := by decide +kernel

/-- R151: a number that is not delivered is BADSEQ. -/
theorem test_ack :
    ask (.ack .b) (taking (demo.post .b (sweepEvent .cadenceSlip 41 1 none)) .b 0x39 [0, 0]) .b = some (.badSeq, []) ∧
    ask (.ack .b) (taking (demo.setEvents .b
      (((demo.post .b (sweepEvent .cadenceSlip 41 1 none)).events .b).deliver 8)) .b 0x39 [0, 0]) .b = some (.ok, [1, 0]) := by
  decide +kernel

theorem test_dischargeEnd :
    ((after (exec (.dischargeEnd 0) (demo.setLane 0 (laneAt 0 .discharge)))).lane 0) =
      { laneAt 0 (.pulsing .charge) with elapsed := 120 } := by decide +kernel

/-- R72: the gap follows the charge phase, and the transfer phase the gap. -/
theorem test_pulsePhaseEnd :
    ((after (exec (.pulsePhaseEnd 0) (demo.setLane 0 (laneAt 0 (.pulsing .charge))))).lane 0).state =
      .pulsing .gapAfterCharge ∧
    ((after (exec (.pulsePhaseEnd 0) (demo.setLane 0 (laneAt 0 (.pulsing .gapAfterCharge))))).lane 0).state =
      .pulsing .transfer := by decide +kernel

theorem test_transferPhaseEnd :
    ((after (exec (.transferPhaseEnd 0 true) (demo.setLane 0 (laneAt 0 (.pulsing .transfer))))).lane 0).counter = 1 := by
  decide +kernel

/-- R75, R57, R58: the last lane reaches its transfer limit at its 2000th pulse; the round completes, the saturated
reading is handed on and the request leaves. -/
theorem test_pulseEnd :
    let t := after (exec (.pulseEnd 0) { inRound with
      lanes := inRound.lanes.set 0 { laneAt 0 (.pulsing (.gapAfterTransfer false)) with counter := 2000 } })
    t.round = none ∧ t.queue = [] ∧
    (t.events .a).records.map (·.event) =
      [readingEvent 0 { value := 2000, sat := true, low := false } none, sweepEvent .sweepDone 9 2 (some 0)] := by
  decide +kernel

/-- R174: the eighth bit completes the byte, most significant bit first. -/
theorem test_serialClockEdge :
    ((after (exec (.serialClockEdge .a (.rising true)) (demo.setHost .a { HostPort.reset with
      transaction := some { marker := .none, received := [], bits := [true, false, false, false, false, false, true] }
      sdo := some false }))).host .a).transaction = some { marker := .none, received := [0x83], bits := [] } := by
  decide +kernel

/-- The opcode table gives no row any bits. -/
theorem test_no_word_spells_a_row : decodeTableWord 8 0x03 = none ∧ demo.withFetchWord 8 0x03 = demo := by
  exact ⟨rfl, rfl⟩

/-! ## A state for every statement's hypotheses -/

theorem forall_port {P : Port → Prop} (ha : P .a) (hb : P .b) : ∀ p, P p := fun p => by cases p <;> assumption

theorem forall_slot {s : State} {P : SlotRecord → Prop} [DecidablePred P]
    (h : ∀ k : SlotNo, (s.slot k).all (fun r => decide (P r)) = true) (k : SlotNo) (r : SlotRecord)
    (hr : s.slot k = some r) : P r := by simpa [hr] using h k

theorem demo_open (p : Port) : (demo.session p).isOpen = true := by cases p <;> rfl

/-- A command of code `code` executes on `demo` at either port. -/
theorem witness_executesOpen (p : Port) (code : Byte) (payload : List Byte) :
    (taking demo p code payload).ExecutesOpen p (soundFrame code 0x41 payload) code :=
  taking_executesOpen rfl (demo_open p) code payload

/-- OPEN, STATUS and RESEND execute on a CLOSED port as well. -/
theorem witness_executes (p : Port) (code : Byte) (payload : List Byte) :
    (taking closed p code payload).Executes p (soundFrame code 0x41 payload) code ∧
    ((taking closed p code payload).session p).isOpen = false := ⟨taking_executes rfl p code payload, by cases p <;> rfl⟩

theorem witness_NothingToDoChangesNothing :
    demo.pending = [] ∧ demo.resetLow = false ∧ (demo.lane 3).state ≠ .discharge ∧
    (demo.lane 3).state ≠ .pulsing .charge ∧ (demo.lane 3).state ≠ .pulsing .gapAfterCharge ∧
    (demo.lane 3).state ≠ .pulsing .transfer ∧
    (∀ crossed, (demo.lane 3).state ≠ .pulsing (.gapAfterTransfer crossed)) ∧
    (demo.cadence .a).running = false ∧ (demo.host .a).transaction = none ∧ (demo.host .a).csLow = false ∧
    (csHeld.host .b).csLow = true ∧ (csHeld.host .b).transaction = none ∧
    ((taking demo .a 0x28 [1, 0, 9]).host .a).work = .taken (soundFrame 0x28 0x41 [1, 0, 9]) ∧
    (soundFrame 0x28 0x41 [1, 0, 9]).code ≠ 0x39 ∧ (soundFrame 0x28 0x41 [1, 0, 9]).cadenceAction = some .load ∧
    (∀ r, (demo.host .a).work ≠ .answered r) ∧ (∀ f, (demo.host .a).work ≠ .taken f) := by
  refine ⟨rfl, rfl, by decide, by decide, by decide, by decide, by decide, rfl, rfl, rfl, rfl, rfl, by decide +kernel,
    by decide, by decide, ?_, ?_⟩ <;> intro x h <;> cases h

/-- RESET# low with a high xCS# at one port and a low one at the other. -/
theorem witness_ResetEvents :
    csHeld.deviceReset.resetLow = true ∧ (csHeld.deviceReset.host .b).csLow = true ∧
    (csHeld.deviceReset.host .a).csLow = false ∧ Instr.tick ≠ .deviceReset ∧
    (∀ quiet, Instr.tick ≠ .resetRelease quiet) ∧ ∀ p, Instr.tick ≠ .transactionStart p ∧ Instr.tick ≠ .transactionEnd p :=
  ⟨rfl, rfl, rfl, by decide, fun _ h => (nomatch h), fun p => by cases p <;> decide⟩

theorem witness_LanePhaseEnds (st : LaneState) :
    ((demo.setLane 3 (laneAt 0 st)).lane 3).state = st ∧ (demo.setLane 3 (laneAt 0 st)).resetLow = false := by
  simp [laneAt, demo]

/-- One pulse before the limit of 2000, at the limit, at a crossing; the other engaged lane running, and ended. -/
theorem witness_PulseEndDecides :
    let pulse := fun n crossed => { laneAt 0 (.pulsing (.gapAfterTransfer crossed)) with counter := n }
    let s := fun n crossed => inRound.setLane 0 (pulse n crossed)
    ((s 1999 false).lane 0).state = .pulsing (.gapAfterTransfer false) ∧
    ((s 1999 false).lane 0).limit ≠ some ((s 1999 false).lane 0).counter ∧
    ((s 2000 false).lane 0).limit = some ((s 2000 false).lane 0).counter ∧
    ((s 1 true).lane 0).state = .pulsing (.gapAfterTransfer true) ∧
    (s 1 true).round = some demoRound ∧
    (∀ l', l' ≠ 0 → (demoRound.lanes[l']).isSome = true → ((s 1 true).lane l').state = .ended) ∧
    (1 : LaneNo) ≠ 0 ∧ (demoRound.lanes[1]).isSome = true ∧
    (((s 1 true).setLane 1 (laneAt 1 .discharge)).lane 1).state ≠ .ended := by decide +kernel

theorem witness_LanePins :
    let x := fun st => laneAt 0 st
    (x .ended).pads.getLsbD 4 = false ∧ (x (.pulsing .charge)).pads.getLsbD 0 = true ∧
    (∀ phase, (x .ended).state ≠ .pulsing phase) := ⟨by decide, by decide, fun _ h => by cases h⟩

/-- Requests of one port, of the other, and of both, with each last leader. -/
theorem witness_LeaderAlternates :
    let s := fun (q : List SweepRequest) (p : Option Port) => ({ demo with queue := q, lastLeader := p } : State)
    (s [request 1 .a [0], request 2 .b [2]] (some .a)).EngagedInv ∧
    (∃ r ∈ (s [request 1 .a [0], request 2 .b [2]] (some .a)).queue, r.port = Port.a.other) ∧
    (∀ r ∈ (s [request 1 .a [0]] (some .a)).queue, r.port ≠ Port.a.other) ∧
    (∃ r ∈ (s [request 2 .b [2], request 1 .a [0]] none).queue, r.port = .a) ∧
    (∀ r ∈ (s [request 2 .b [2]] none).queue, r.port ≠ .a) := by
  refine ⟨?_, by decide, by decide, by decide, by decide⟩
  intro r hr
  simp only [List.mem_cons, List.not_mem_nil, or_false] at hr
  obtain rfl | rfl := hr <;> simp [request, newRequest]

theorem witness_RoundStart :
    inRound.round ≠ none ∧ demo.queue = [] ∧
    ({ demo with gate := { Gate.reset with observed := .shut } } : State).gate.observed = .shut ∧
    let s : State := { demo with queue := [request 1 .a [1, 0], request 2 .b [2], request 3 .a [0]], lastLeader := some .a }
    s.round = none ∧ s.gate.observed = .opened ∧
    s.queue = [request 1 .a [1, 0]] ++ request 2 .b [2] :: [request 3 .a [0]] ∧ (request 2 .b [2]).port = s.nextLeader ∧
    (∀ r ∈ [request 1 .a [1, 0]], r.port ≠ s.nextLeader) ∧
    s.roundStartCheck.round.map (·.lanes.toList) = some [some 0, some 1, some 2, none] := by decide +kernel

/-- Also the premise of `RoundCompletionPostsInOrder`. -/
theorem witness_RoundCompletion :
    inRound.round = some demoRound ∧ demoRound.lanes[1] = some 1 ∧
    (∀ l' : LaneNo, demoRound.lanes[l'] = some 1 → l' = 1) ∧ (inRound.slot 1).isSome = true ∧
    (inRound.lane 1).reading = some (crossingReading 500) := by decide +kernel

theorem witness_RoundCompletionPostsInOrder (l l' : LaneNo) (k : SlotNo) (h : demoRound.lanes[l] = some k)
    (h' : demoRound.lanes[l'] = some k) : l = l' := by
  have : ∀ l l' : LaneNo, (demoRound.lanes[l]).isSome = true → demoRound.lanes[l] = demoRound.lanes[l'] → l = l' := by
    decide +kernel
  exact this l l' (by simp [h]) (h.trans h'.symm)

/-- The enabled gate of holder `p`, with QUIET at `line`. -/
def gateOf (p : Port) (line : Level) : Gate :=
  { settings := { enabled := true, openLevel := .high, abortLimit := 1 }, holder := some p, line := line
    observed := observedState { enabled := true, openLevel := .high, abortLimit := 1 } line }

theorem witness_QuietLevelChange :
    let s := fun (x : State) (line : Level) => ({ x with gate := gateOf .a line } : State)
    let state := fun (x : State) (level : Level) =>
      if x.gate.settings.enabled = true ∧ level ≠ x.gate.settings.openLevel then GateState.shut else GateState.opened
    (s demo .low).gate.observed = state (s demo .low) .low ∧ (s demo .low).gate.observed = .shut ∧
    state (s demo .low) .high = .opened ∧ (s demo .high).gate.observed = .opened ∧ state (s demo .high) .low = .shut ∧
    (s demo .high).round = none ∧ (s inRound .high).round = some demoRound := by decide +kernel

/-- Abort limits 0 and 9 are refused and 1 and 8 accepted; the gate free, held by the port, held by the other. -/
theorem witness_SetGateCommand :
    gateArg [1, 1, 0] = none ∧ gateArg [1, 1, 9] = none ∧ gateArg [1, 1] = none ∧
    gateArg [1, 1, 1] = some { enabled := true, openLevel := .high, abortLimit := 1 } ∧
    gateArg [0, 0, 8] = some { enabled := false, openLevel := .low, abortLimit := 8 } ∧
    (gateOf .b .low).holder = some Port.a.other ∧ (gateOf .a .low).holder ≠ some Port.a.other ∧
    inRound.gate.observed = .opened ∧ inRound.gate.line ≠ .high ∧ inRound.round = some demoRound := by decide +kernel

/-- A timer of port A with this counter and these ticks before it. -/
def timed (counter owed : Nat) : State := demo.setCadence .a { running := true, counter := counter, latch := 5, owed := owed }

theorem witness_TickCommand :
    (demo.cadence .b).running = false ∧ ((timed 2 0).cadence .a).running = true ∧ ((timed 2 0).cadence .a).owed = 0 ∧
    1 < ((timed 2 0).cadence .a).counter ∧ ((timed 1 0).cadence .a).counter = 1 ∧ ((timed 1 0).cadence .a).owed = 0 ∧
    1 ≤ ((timed 1 3).cadence .a).counter := by decide +kernel

/-- A counter of 2 and of 1; an empty standing list, a TIMER request queued, three requests queued, two queued. -/
theorem witness_CadenceExpiryCommand :
    let s := fun (c : Nat) (ks : List SlotNo) (q : List SweepRequest) => ({ (timed c 1).setStanding .a ks with queue := q } : State)
    let timer : SweepRequest := { request 2 .a [1] with origin := .timer }
    let three := [request 1 .a [1], request 2 .b [2], request 3 .a [1], request 4 .a [0]]
    let two := [request 1 .a [1], { request 2 .b [2] with origin := .timer }, request 3 .a [1]]
    (s 2 [] []).resetLow = false ∧ ((s 2 [] []).cadence .a).running = true ∧ 0 < ((s 2 [] []).cadence .a).owed ∧
    1 < ((s 2 [] []).cadence .a).counter ∧ ((s 1 [] []).cadence .a).counter = 1 ∧ (s 1 [] []).standing .a = [] ∧
    (s 1 [0] []).standing .a ≠ [] ∧
    (s 1 [0] [request 1 .a [1], timer]).queue = [request 1 .a [1]] ++ timer :: [] ∧ timer.port = .a ∧
    timer.origin = .timer ∧ (∀ x ∈ [request 1 .a [1]], x.port = .a → x.origin ≠ .timer) ∧
    (∀ x ∈ (s 1 [0] three).queue, x.port = .a → x.origin ≠ .timer) ∧
    3 ≤ ((s 1 [0] three).queue.filter fun r => decide (r.port = .a)).length ∧
    (∀ x ∈ (s 1 [0] two).queue, x.port = .a → x.origin ≠ .timer) ∧
    ((s 1 [0] two).queue.filter fun r => decide (r.port = .a)).length < 3 := by decide +kernel

/-- The bounds 5 and 50000 of a period, 4 and 50001 outside them, a timer running and stopped, the payload lengths, and
action bytes 0 and 5. -/
theorem witness_SetCadenceCommands :
    (soundFrame 0x28 0 [1, 0, 5]).payload = 1 :: numBytes 5 ∧
    (soundFrame 0x28 0 [2, 0xC3, 0x50]).payload = 2 :: numBytes 50000 ∧
    (soundFrame 0x28 0 [1, 0, 4]).payload = 1 :: numBytes 4 ∧
    (soundFrame 0x28 0 [2, 0xC3, 0x51]).payload = 2 :: numBytes 50001 ∧
    (soundFrame 0x28 0 [3, 0xFF, 0xFF]).payload = 3 :: numBytes 65535 ∧
    (soundFrame 0x28 0 [4, 0, 0]).payload = 4 :: numBytes 0 ∧ (demo.cadence .a).running = false ∧
    ((timed 1 0).cadence .a).running = true ∧ (soundFrame 0x28 0 [4, 0]).payload = 4 :: [0] ∧
    ([0] : List Byte).length ≠ 2 ∧ (soundFrame 0x28 0 []).payload = [] ∧ (4 : Byte) < 5 ∧
    (soundFrame 0x28 0 [0, 0, 5]).payload = 0 :: [0, 5] := by decide +kernel

/-- Six requests, three of each port, the ids below the counter taken round the wrap. -/
theorem witness_SweepIds :
    ({ demo with
      nextId := 253
      queue := [request 253 .a [0], request 254 .a [0], request 255 .a [0], request 1 .b [0], request 2 .b [0],
        request 3 .b [0]] } : State).ShareInv := by
  refine ⟨forall_port ?_ ?_, ?_⟩ <;> decide +kernel

theorem witness_SetStandingCommand :
    slotListArg [1] = none ∧ slotListArg [2, 3, 3] = none ∧ slotListArg [1, 32] = none ∧ slotListArg [0] = some [] ∧
    slotListArg [2, 1, 31] = some [1, 31] ∧ demo.slot 31 = none ∧ slotListArg [2, 1, 2] = some [1, 2] ∧
    demo.slot 1 ≠ none ∧ demo.slot 2 = some (slotOf .b (params 2 true false) false) ∧
    (slotOf .b (params 2 true false) false).subs.get .a = false ∧
    (∀ k ∈ ([0, 1] : List SlotNo), demo.slot k ≠ none ∧ demo.subscribes .a k = true) := by decide +kernel

theorem witness_SweepCommand :
    sweepArg [0] = none ∧ sweepArg [0xFF, 0] = none ∧ sweepArg [0xFF] = some .standing ∧ demo.standing .a = [] ∧
    (demo.setStanding .a [1]).standing .a = [1] ∧ sweepArg [1, 31] = some (.explicit [31]) ∧ demo.slot 31 = none ∧
    sweepArg [1, 2] = some (.explicit [2]) ∧ demo.subscribes .a 2 = false ∧ sweepArg [2, 0, 1] = some (.explicit [0, 1]) ∧
    (∀ k ∈ ([0, 1] : List SlotNo), demo.slot k ≠ none ∧ demo.subscribes .a k = true) ∧
    (let three := [request 1 .a [0], request 2 .b [0], request 3 .a [0], request 4 .a [0]]
     3 ≤ (three.filter fun r => decide (r.port = .a)).length ∧
     ((three.drop 1).filter fun r => decide (r.port = .a)).length < 3) := by decide +kernel

/-- Ids 0, 1 and 255; a waiting and an engaged request of the port, and one of the other port. -/
theorem witness_CancelCommand :
    let s : State := { inRound with queue := inRound.queue ++ [request 1 .a [1], request 255 .b [2]] }
    (s.queue.map (·.id)).Nodup ∧ cancelArg [0] = none ∧ cancelArg [] = none ∧ cancelArg [8] = some 8 ∧
    (∀ r ∈ s.queue, r.id ≠ 8) ∧ cancelArg [0xFF] = some 255 ∧ request 255 .b [2] ∈ s.queue ∧
    (request 255 .b [2]).port ≠ .a ∧ cancelArg [1] = some 1 ∧ request 1 .a [1] ∈ s.queue ∧ (request 1 .a [1]).engaged = [] ∧
    engaged (request 9 .a [0, 1]) [0, 1] ∈ s.queue ∧ (engaged (request 9 .a [0, 1]) [0, 1]).engaged ≠ [] := by
  decide +kernel

theorem witness_DefineCommand :
    let q := params 3 false true
    defineArg (32 :: paramsBytes q) = none ∧ defineArg [] = none ∧ defineArg (0 :: paramsBytes q) = some (.named 0, q) ∧
    demo.slot 0 ≠ none ∧ defineArg (31 :: paramsBytes q) = some (.named 31, q) ∧ demo.slot 31 = none ∧
    defineArg (0xFF :: paramsBytes q) = some (.any, q) ∧ demo.slot 3 = none ∧ (∀ k' < (3 : SlotNo), demo.slot k' ≠ none) ∧
    (∀ k, ({ demo with slots := Vector.replicate _ (some (slotOf .a q false)) } : State).slot k ≠ none) := by
  decide +kernel

/-- Slot 1 of `demo`, pressed. -/
def pressedSlot : SlotRecord :=
  { slotOf .a (params 1 false false) false with
    key := { idleKey 612 with state := .held }
    last := some { reading := crossingReading 560, tick := 0 } }

theorem witness_ModifyCommand :
    let q := params 1 false false
    let payload := fun (b : Byte) (q : Params) => b :: paramsBytes q
    modifyArg (payload 0xFF q) = none ∧ modifyArg (payload 31 q) = some (31, q) ∧ demo.slot 31 = none ∧
    modifyArg (payload 1 q) = some (1, q) ∧ demo.slot 1 = some (slotOf .a q false) ∧ (slotOf .a q false).owner ≠ .b ∧
    (inRound.slot 1).map (fun r => (r.owner, r.inFlight)) = some (.a, true) ∧ (slotOf .a q false).inFlight = false ∧
    q = (slotOf .a q false).params ∧ ({ q with hold := 1 } : Params) ≠ q ∧ ({ q with hold := 1 } : Params).limit = q.limit ∧
    ({ q with limit := 64 } : Params).limit ≠ q.limit ∧ pressedSlot.key.state = .held ∧
    pressedSlot.key.baseline = some 612 ∧ pressedSlot.last.isSome = true ∧
    (slotOf .a (params 0 true true) true).params.shared = true ∧
    (slotOf .a (params 0 true true) true).subs.get Port.a.other = true := by decide +kernel

/-- DELETE, SUBSCRIBE, UNSUBSCRIBE, READ_SLOT and RECALIBRATE: no slot number, a FREE slot, the owner, the subscribed
non-owner and the stranger, in flight and not. -/
theorem witness_OneSlotCommands :
    slotArg [] = none ∧ slotArg [32] = none ∧ slotArg [31] = some 31 ∧ demo.slot 31 = none ∧
    (demo.slot 0).map (fun r => (r.owner, r.subs.get .a, r.subs.get .b, r.inFlight)) = some (.a, true, true, false) ∧
    (demo.slot 1).map (fun r => (r.owner, r.subs.get .b, r.params.shared)) = some (.a, false, false) ∧
    (demo.slot 2).map (fun r => (r.owner, r.subs.get .a, r.params.shared)) = some (.b, false, true) ∧
    (inRound.slot 0).map (fun r => (r.owner, r.subs.get .b, r.inFlight)) = some (.a, true, true) ∧
    (demo.slot 1).map (·.key.state) = some .uncal ∧ pressedSlot.subs.get .a = true ∧ pressedSlot.key.state = .held ∧
    pressedSlot.key.baseline = some 612 ∧ pressedSlot.last.isSome = true := by decide +kernel

theorem witness_SetProfileCommand :
    setProfileArg [0, 1, 64] = none ∧ setProfileArg [0, 2, 65] = none ∧ setProfileArg [4, 2, 2] = none ∧
    setProfileArg [0, 2, 64] = some (0, { charge := 2, transfer := 64 }) ∧
    demo.slot 2 = some (slotOf .b (params 2 true false) false) ∧
    (slotOf .b (params 2 true false) false).owner = Port.a.other ∧ (params 2 true false).profile = 0 := by decide +kernel

theorem witness_SetProfileCommand_free (k : SlotNo) (r : SlotRecord) (h : demo.slot k = some r)
    (_ : r.owner = Port.a.other) : r.params.profile ≠ 3 :=
  forall_slot (P := fun r => r.params.profile ≠ 3) (by decide +kernel) k r h

theorem witness_CalibrationReading :
    KeyFields.initial.state = .uncal ∧ (crossingReading 8).sat = false ∧ (crossingReading 8).low = false ∧
    ({ KeyFields.initial with calCount := 2 } : KeyFields).calCount < 3 ∧
    3 ≤ ({ KeyFields.initial with calCount := 3 } : KeyFields).calCount := by decide

/-- Touch threshold 50 at a baseline of 800: readings of 750 and 751 below it, of 850 and 851 above. -/
theorem witness_IdleAndArmingReading :
    (idleKey 800).baseline = some 800 ∧ (idleKey 800).state = .idle ∧ 750 + 50 ≤ 800 ∧ 800 < 751 + 50 ∧ 850 ≤ 800 + 50 ∧
    800 + 50 < 851 ∧ (params 0 true true).touch = 50 ∧ (params 0 true true).debounce ≠ 1 ∧ (params 0 true true).drift ≠ 0 ∧
    (idleKey 800).drift + 1 < 3 ∧ 3 ≤ ({ idleKey 800 with drift := 2 } : KeyFields).drift + 1 ∧
    ({ idleKey 800 with confirm := 1 } : KeyFields).confirm + 1 = (params 0 true true).debounce := by decide

/-- Release threshold 30 at a baseline of 800: readings of 770 and 771; hold limit 3 at a hold count of 2 and of 1. -/
theorem witness_HeldAndLiftingReading :
    770 + 30 ≤ 800 ∧ 800 < 771 + 30 ∧ (params 0 true true).release = 30 ∧ min 255 (2 + 1) = 3 ∧ min 255 (1 + 1) ≠ 3 ∧
    min 255 (255 + 1) = 255 ∧ ({ idleKey 800 with state := .held } : KeyFields).state = .held ∧
    ({ idleKey 800 with state := .lifting, confirm := 1 } : KeyFields).confirm + 1 = (params 0 true true).debounce := by
  decide

theorem witness_BadReadingsAndFault :
    (limitReading 2000).sat = true ∧ (crossingReading 7).low = true ∧ (idleKey 800).state ≠ .fault ∧
    ({ idleKey 800 with badRun := 1 } : KeyFields).badRun < 2 ∧ 2 ≤ ({ idleKey 800 with badRun := 2 } : KeyFields).badRun ∧
    ({ idleKey 800 with state := .fault } : KeyFields).state = .fault := by decide

/-- A queue of 23 records and of 24. -/
theorem witness_PostingAnEvent :
    let record : EventRecord := { seq := 0, event := slotGoneEvent 0, gap := false, time := 0, delivered := false }
    let s := fun n => demo.setEvents .a { records := List.replicate n record ++ [record], nextSeq := 0 }
    (closed.session .a).isOpen = false ∧ ((s 22).session .a).isOpen = true ∧ ((s 22).events .a).records.length < 24 ∧
    ((s 23).events .a).records = List.replicate 23 record ++ [record] ∧
    24 ≤ (List.replicate 23 record ++ [record]).length := by decide +kernel

theorem witness_FetchCommand :
    (∀ n : Byte, (soundFrame 0x38 0 [0]).payload = [n] → n = 0 ∨ 8 < n) ∧
    (∀ n : Byte, (soundFrame 0x38 0 [9]).payload = [n] → n = 0 ∨ 8 < n) ∧
    (∀ n : Byte, (soundFrame 0x38 0 []).payload = [n] → n = 0 ∨ 8 < n) ∧
    (1 : Byte) ≤ 8 ∧ (soundFrame 0x38 0 [8]).payload = [8] := by
  refine ⟨?_, ?_, ?_, by decide, rfl⟩ <;> intro n h <;> simp [soundFrame] at h <;> subst h <;> decide

/-- Two records of port B, numbers 0xFFFF and 0, the first of them delivered. -/
theorem witness_AckCommand :
    let first : EventRecord := { seq := 0xFFFF, event := slotGoneEvent 0, gap := false, time := 0, delivered := true }
    let second : EventRecord := { first with seq := 0, delivered := false }
    let Q : EventQueue := { records := [first, second], nextSeq := 1 }
    (soundFrame 0x39 0 [0]).payload.length ≠ 2 ∧ (soundFrame 0x39 0 [0xFF, 0xFF]).payload = wordBytes 0xFFFF ∧
    (∀ r ∈ Q.records, r.seq = 0 → r.delivered = false) ∧ Q.records = [] ++ first :: [second] ∧ first.seq = 0xFFFF ∧
    first.delivered = true ∧ Q.deliveredPrefix := by
  refine ⟨by decide, by decide, by decide, rfl, rfl, rfl, ?_⟩
  simp [EventQueue.deliveredPrefix]

/-- A port with nothing to send, with a response, and executing. -/
theorem witness_TransactionStart :
    (demo.host .a).csLow = false ∧ (demo.host .a).work = .none ∧ (demo.host .a).buffer = none ∧
    ((taking demo .a 0x03 []).host .a).work ≠ .none ∧ ((taking demo .a 0x03 []).host .a).csLow = false ∧
    ((after (exec (.responsePlacement .a) (demo.respond .a 0 .ok []))).host .a).work = .none ∧
    (((after (exec (.responsePlacement .a) (demo.respond .a 0 .ok []))).host .a).buffer).isSome = true := by decide +kernel

/-- Six bits and seven bits received; and no transaction under a low xCS#. -/
theorem witness_SerialClockEdges :
    let s := fun bits => demo.setHost .a { HostPort.reset with csLow := true, transaction := some { marker := .none, received := [0x83], bits := bits } }
    (s [true, false, false, false, false, false]).resetLow = false ∧
    ([true, false, false, false, false, false] : List Bool).length < 7 ∧
    ((s [true, false, false, false, false, false, true]).host .a).transaction =
      some { marker := .none, received := [0x83], bits := (bitsOf 0x83).take 7 } ∧
    csHeld.resetLow = false ∧ (csHeld.host .b).transaction = none ∧ (csHeld.host .b).csLow = true := by decide +kernel

/-- A response of 7 bytes, clocked out whole and one byte short; with each marker; and no transaction. -/
theorem witness_TransactionEnd :
    let r : Outgoing := { response := { tag := 0x41, status := .ok, session := 1, payload := [52] }, ofResend := false }
    let s := fun m (bytes : List Byte) => demo.setHost .b { HostPort.reset with
      csLow := true, transaction := some { marker := m, received := bytes, bits := [] }, buffer := some r, sdo := some true }
    ((s .response [0, 0, 0, 0, 0, 0]).host .b).buffer = some r ∧ ((s .response []).host .b).csLow = true ∧
    (csHeld.host .b).csLow = true ∧ (csHeld.host .b).transaction = none ∧
    [0, 0, 0, 0, 0, (0 : Byte)].length < (responseBytes r.response).length ∧
    (responseBytes r.response).length ≤ [0, 0, 0, 0, 0, 0, (0 : Byte)].length ∧
    ((s .busy []).host .b).transaction = some { marker := .busy, received := [], bits := [] } ∧
    ((s .none []).host .b).transaction = some { marker := .none, received := [], bits := [] } := by decide +kernel

/-- Two bytes, a length byte of 61, four bytes of a frame of five; a payload of 60 bytes. -/
theorem witness_FrameReading :
    ([3, 1] : List Byte).length < 3 ∧ 60 < (61 : Byte).toNat ∧ ([0x07] : List Byte).length < (1 : Byte).toNat + 1 ∧
    (soundFrame 0x10 0 (List.replicate 60 0)).code ≠ 0 ∧ (soundFrame 0x10 0 (List.replicate 60 0)).payload.length ≤ 60 := by
  decide +kernel

theorem witness_AnswerAndPlacement :
    ((demo.respond .a 0x41 .ok []).host .a).work = .answered
      { response := { tag := 0x41, status := .ok, session := 1, payload := [] }, ofResend := false } ∧
    (demo.respond .a 0x41 .ok []).resetLow = false := by decide +kernel

/-- A wrong CRC, an unlisted code, a closed port, and a SET_CADENCE frame of an action, of none and without one. -/
theorem witness_FirstThreeChecks :
    let bad : Frame := { code := 0x28, tag := 0, payload := [4, 0, 0], crc := 0 }
    ((demo.setHost .a { HostPort.reset with work := .taken bad }).host .a).work = .taken bad ∧ bad.crcOk = false ∧
    bad.cadenceAction = some .resume ∧ (soundFrame 0x28 0 []).cadenceAction = none ∧
    (soundFrame 0x28 0 [5, 0, 0]).cadenceAction = none ∧ (soundFrame 0x17 0 []).crcOk = true ∧
    (0x17 : Byte) ∉ commandCodes ∧ (0x01 : Byte) ∈ commandCodes ∧ (0x39 : Byte) ∈ commandCodes ∧
    (closed.session .a).isOpen = false ∧ closed.resetLow = false := by decide +kernel

theorem witness_ResendCommand :
    ((taking demo .a 0x04 []).host .a).lastResponse = none ∧
    ({ HostPort.reset with
      lastResponse := some { tag := 0x40, status := .ok, session := 1, payload := [52] } } : HostPort).lastResponse ≠ none := by
  decide

theorem witness_ClockedFrameIsTaken :
    demo.resetLow = false ∧ (demo.host .a).csLow = false ∧ (demo.host .a).transaction = none ∧
    (demo.host .a).work = .none ∧ (demo.host .a).buffer = none ∧ (soundFrame 0x03 0x01 []).code ≠ 0 ∧ (soundFrame 0x03 0x01 []).payload.length ≤ 60 ∧
    ({ demo with pending := transactionEvents .a (frameBytes (soundFrame 0x03 0x01 []) ++ [0xFF]) } : State).pending =
      transactionEvents .a (frameBytes (soundFrame 0x03 0x01 []) ++ [0xFF]) := by
  refine ⟨rfl, rfl, rfl, rfl, rfl, by decide, by decide, rfl⟩

/-! ## The invariants, in the middle of a round -/

theorem inRound_slot (k : SlotNo) (r : SlotRecord) (h : inRound.slot k = some r) :
    (k = 0 ∧ r = { slotOf .a (params 0 true true) true with inFlight := true }) ∨
  (k = 1 ∧ r = { slotOf .a (params 1 false false) false with inFlight := true }) ∨
  (k = 2 ∧ r = slotOf .b (params 2 true false) false) := by
  have : ∀ k : SlotNo, inRound.slot k = none ∨ 
    (k = 0 ∧ inRound.slot k = some { slotOf .a (params 0 true true) true with inFlight := true }) ∨
    (k = 1 ∧ inRound.slot k = some { slotOf .a (params 1 false false) false with inFlight := true }) ∨
    (k = 2 ∧ inRound.slot k = some (slotOf .b (params 2 true false) false)) := by decide +kernel
  rcases this k with h' | ⟨e, h'⟩ | ⟨e, h'⟩ | ⟨e, h'⟩ <;> rw [h'] at h <;> simp at h <;> simp [e, ← h]

theorem inRound_queue (r : SweepRequest) (h : r ∈ inRound.queue) : r = engaged (request 9 .a [0, 1]) [0, 1] := by
  have : inRound.queue = [engaged (request 9 .a [0, 1]) [0, 1]] := by decide +kernel
  simpa [this] using h

theorem inRound_sessionInv : inRound.SessionInv :=
  forall_port (by decide +kernel) (by decide +kernel)

theorem inRound_cadenceInv : inRound.CadenceInv :=
  forall_port (by decide +kernel) (by decide +kernel)

theorem inRound_gateInv : inRound.GateInv := ⟨by decide +kernel, forall_port (by decide +kernel) (by decide +kernel), by decide +kernel, by decide +kernel⟩

theorem inRound_profileInv : inRound.ProfileInv := by unfold State.ProfileInv; decide +kernel

theorem inRound_eventQueueInv : inRound.EventQueueInv := by
  have : ∀ p, inRound.events p = { records := [], nextSeq := 0 } :=
  forall_port (by decide +kernel) (by decide +kernel)
  intro p; rw [this]; simp [EventQueue.seqRises, EventQueue.deliveredPrefix]

theorem inRound_subscriberInv : inRound.SubscriberInv := by
  intro k r h; rcases inRound_slot k r h with ⟨rfl, rfl⟩ | ⟨rfl, rfl⟩ | ⟨rfl, rfl⟩ <;> decide +kernel

theorem inRound_standingInv : inRound.StandingInv :=
  forall_port (by decide +kernel) (by decide +kernel)

theorem inRound_paramsInv : inRound.ParamsInv := by
  intro k r h; rcases inRound_slot k r h with ⟨rfl, rfl⟩ | ⟨rfl, rfl⟩ | ⟨rfl, rfl⟩ <;> decide +kernel

theorem inRound_shareInv : inRound.ShareInv := ⟨forall_port (by decide +kernel) (by decide +kernel), by decide +kernel⟩

theorem inRound_remainingInv : inRound.RemainingInv := by
  intro r h; rw [inRound_queue r h]; decide +kernel

theorem inRound_countsInv : inRound.CountsInv := by
  intro r h; rw [inRound_queue r h]; decide +kernel

theorem inRound_resetInv : inRound.ResetInv := by intro h; cases h

theorem inRound_engagedInv : inRound.EngagedInv := by
  intro r h; rw [inRound_queue r h]; refine ⟨by decide +kernel, by decide +kernel, ?_⟩
  intro k hk
  refine ⟨by revert k; decide +kernel, demoRound, rfl, by revert k; decide +kernel⟩

theorem inRound_round (r : Round) (h : r ∈ inRound.round) : r = demoRound := by cases h; rfl

theorem inRound_inFlightInv : inRound.InFlightInv := by
  constructor
  · intro r h; rw [inRound_round r h]
    intro l k hk
    have : ∀ l k : Fin _, demoRound.lanes[(l : LaneNo)] = some (k : SlotNo) → inRound.laneOf k = some l := by decide +kernel
    exact this l k hk
  · intro k r h
    have : (∃ round ∈ inRound.round, round.holds k = true) ↔ demoRound.holds k = true :=
      ⟨fun ⟨x, hx, h⟩ => inRound_round x hx ▸ h, fun h => ⟨_, rfl, h⟩⟩
    rw [this]
    rcases inRound_slot k r h with ⟨rfl, rfl⟩ | ⟨rfl, rfl⟩ | ⟨rfl, rfl⟩ <;> decide +kernel

theorem inRound_roundLiveInv : inRound.RoundLiveInv := by
  intro r h; rw [inRound_round r h]
  exact ⟨⟨0, by decide +kernel, by decide +kernel⟩, _, List.mem_cons_self, by decide +kernel⟩

theorem inRound_noIdleArbiterInv : inRound.NoIdleArbiterInv := by intro h; cases h

theorem inRound_laneInv : inRound.LaneInv := by
  intro l; fin_cases l
  · refine ⟨⟨⟨by decide +kernel, by decide +kernel, ⟨24, rfl, by decide, by decide⟩, ⟨24, rfl, by decide, by decide⟩,
      ⟨2000, rfl, by decide, by decide⟩⟩, rfl, ⟨2000, rfl, ?_⟩⟩, by decide +kernel⟩
    exact ⟨by decide +kernel, by decide +kernel, by decide +kernel⟩
  · refine ⟨⟨⟨by decide +kernel, by decide +kernel, ⟨24, rfl, by decide, by decide⟩, ⟨24, rfl, by decide, by decide⟩,
      ⟨2000, rfl, by decide, by decide⟩⟩, ⟨2000, rfl, crossingReading 500, rfl, ?_⟩⟩, by decide +kernel⟩
    exact ⟨by decide +kernel, by decide +kernel, by decide +kernel, by decide +kernel, by decide +kernel, by decide +kernel⟩
  · exact ⟨rfl, by decide +kernel⟩
  · exact ⟨rfl, by decide +kernel⟩

theorem inRound_keyInv : inRound.KeyInv := by
  intro k r h
  have : r.key = KeyFields.initial ∧ r.last = none := by
    rcases inRound_slot k r h with ⟨rfl, rfl⟩ | ⟨rfl, rfl⟩ | ⟨rfl, rfl⟩ <;> exact ⟨rfl, rfl⟩
  simp [this, KeyFields.InRange, KeyFields.initial, KeyState.pressed]

theorem inRound_resetLow : inRound.resetLow = false := rfl

theorem inRound_hostPortInv : inRound.HostPortInv := by
  have : ∀ p, inRound.host p = HostPort.reset :=
  forall_port (by decide +kernel) (by decide +kernel)
  intro p; rw [this]; simp [HostPort.Consistent, HostPort.reset, HostPort.executing, inRound_resetLow]

/-- The premises of every statement about what a step keeps. -/
theorem witness_StepKeeps :
    (inRound.SessionInv ∧ inRound.CadenceInv ∧ inRound.GateInv ∧ inRound.ProfileInv) ∧ inRound.EventQueueInv ∧
    (inRound.SubscriberInv ∧ inRound.StandingInv ∧ inRound.ParamsInv) ∧
    (inRound.ShareInv ∧ inRound.RemainingInv ∧ inRound.CountsInv) ∧
    (inRound.ResetInv ∧ inRound.EngagedInv ∧ inRound.InFlightInv ∧ inRound.RoundLiveInv ∧ inRound.NoIdleArbiterInv) ∧
    inRound.LaneInv ∧ inRound.KeyInv ∧ inRound.HostPortInv ∧ ∃ t, step inRound = .next t :=
  ⟨⟨inRound_sessionInv, inRound_cadenceInv, inRound_gateInv, inRound_profileInv⟩, inRound_eventQueueInv,
    ⟨inRound_subscriberInv, inRound_standingInv, inRound_paramsInv⟩,
    ⟨inRound_shareInv, inRound_remainingInv, inRound_countsInv⟩,
    ⟨inRound_resetInv, inRound_engagedInv, inRound_inFlightInv, inRound_roundLiveInv, inRound_noIdleArbiterInv⟩,
    inRound_laneInv, inRound_keyInv, inRound_hostPortInv, step_next inRound⟩

end Sys2Proof.Tests
end

section
/-! PROOFS. The leader port of a new round (R50): which port has a queued request, and which of the two leads. -/

namespace Sys2Proof.Machine

variable {s : State} {p : Port}

theorem State.hasRequest_iff : s.hasRequest p = true ↔ ∃ r ∈ s.queue, r.port = p := by
  simp [State.hasRequest]

theorem State.hasRequest_eq_false_iff : s.hasRequest p = false ↔ ∀ r ∈ s.queue, r.port ≠ p := by
  simp [State.hasRequest]

/-- There are two ports only, so a non-empty queue holds a request of one or of the other. -/
theorem State.hasRequest_other (hq : s.queue ≠ []) (hp : s.hasRequest p = false) : s.hasRequest p.other = true := by
  obtain ⟨r, hr⟩ := List.exists_mem_of_ne_nil s.queue hq
  exact hasRequest_iff.2 ⟨r, hr, Port.eq_other_of_ne (hasRequest_eq_false_iff.1 hp r hr)⟩

theorem State.nextLeader_of_lastLeader_none (h : s.lastLeader = none) :
    s.nextLeader = if s.hasRequest .a then .a else .b := by
  simp only [State.nextLeader, h]

theorem State.nextLeader_of_lastLeader_some (h : s.lastLeader = some p) :
    s.nextLeader = if s.hasRequest p.other then p.other else p := by
  simp only [State.nextLeader, h]

/-- The fallback of R50 ("Port B leads otherwise", or the last leader again) is never a port with nothing queued. -/
theorem State.hasRequest_nextLeader (hq : s.queue ≠ []) : s.hasRequest s.nextLeader = true := by
  cases hl : s.lastLeader with
  | none =>
    rw [nextLeader_of_lastLeader_none hl]
    split
    case isTrue ha => exact ha
    case isFalse ha => exact hasRequest_other hq (Bool.eq_false_iff.2 ha)
  | some p =>
    rw [nextLeader_of_lastLeader_some hl]
    split
    case isTrue ho => exact ho
    case isFalse ho => simpa using hasRequest_other hq (Bool.eq_false_iff.2 ho)

/-- Without a round no slot is engaged. -/
theorem State.EngagedInv.isEngaged_eq_false (h : s.EngagedInv) (hround : s.round = none) {r : SweepRequest}
    (hr : r ∈ s.queue) : r.isEngaged = false := by
  obtain ⟨-, -, hheld⟩ := h r hr
  have hnil : r.engaged = [] := List.eq_nil_iff_forall_not_mem.2 fun k hk => by
    obtain ⟨-, round, hsome, -⟩ := hheld k hk
    simp [hround] at hsome
  simp [SweepRequest.isEngaged, hnil]

/-- A request is marked cancelling only while it is engaged (R39), so never between rounds. -/
theorem State.EngagedInv.cancelling_eq_false (h : s.EngagedInv) (hround : s.round = none) {r : SweepRequest}
    (hr : r ∈ s.queue) : r.cancelling = false := by
  obtain ⟨hcancelling, -, -⟩ := h r hr
  exact Bool.eq_false_iff.2 fun hc => by simpa [h.isEngaged_eq_false hround hr] using hcancelling hc

end Sys2Proof.Machine

namespace Sys2Proof.Proofs

open Sys2Proof.Machine

/-- Settles O9: the two equations of `nextLeader`, read through `hasRequest`; the leader has a request because one of the
two ports has. -/
theorem leaderAlternates : Obligations.LeaderAlternates := by
  intro s hq
  refine ⟨fun hinv hround r hr => hinv.cancelling_eq_false hround hr,
    State.hasRequest_iff.1 (State.hasRequest_nextLeader hq), fun p hl ho => ?_, fun p hl ho => ?_, fun hl ha => ?_,
    fun hl ha => ?_⟩
  · simp [State.nextLeader_of_lastLeader_some hl, State.hasRequest_iff.2 ho]
  · simp [State.nextLeader_of_lastLeader_some hl, State.hasRequest_eq_false_iff.2 ho]
  · simp [State.nextLeader_of_lastLeader_none hl, State.hasRequest_iff.2 ha]
  · simp [State.nextLeader_of_lastLeader_none hl, State.hasRequest_eq_false_iff.2 ha]

end Sys2Proof.Proofs
end

section
/-! PROOFS. The CRC-8 of frames (R178): the register's shift and byte, and the residue of a frame whose CRC is right. -/

namespace Sys2Proof

variable {r b : Byte} {bs : List Byte} {f : Frame}

/-- The shift as R178 words it: the bit shifted out is the most significant one, and 0x9B is the generator. -/
theorem crcShift_eq_ite : crcShift = fun r : Byte => if r.getMsbD 0 = true then (r <<< 1) ^^^ 0x9B else r <<< 1 := rfl

theorem isFixedPt_crcShift_zero : Function.IsFixedPt crcShift 0 := rfl

theorem crcByte_eq_iterate : crcByte r b = crcShift^[8] (r ^^^ b) := rfl

/-- A byte equal to the register clears it, and a clear register stays clear under the eight shifts. -/
theorem crcByte_self : crcByte r r = 0 := by
  rw [crcByte_eq_iterate, BitVec.xor_self]
  exact isFixedPt_crcShift_zero.iterate 8

theorem crc8_concat : crc8 (bs ++ [b]) = crcByte (crc8 bs) b := List.foldl_concat ..

theorem crc8_concat_crc8 : crc8 (bs ++ [crc8 bs]) = 0 := by
  rw [crc8_concat, crcByte_self]

theorem Frame.crcOk_iff : f.crcOk = true ↔ f.crc = crc8 f.body := decide_eq_true_iff

end Sys2Proof

namespace Sys2Proof.Proofs

open Sys2Proof.Machine

/-- Settles O48: a byte is eight shifts, and the CRC byte itself brings the register to 0, its fixed point. The two frames'
parts are read off `Frame.body` and `responseBody`. -/
protected theorem crc8 : Obligations.Crc8 := by
  refine ⟨rfl, fun bs b => ?step, fun _ => crc8_concat_crc8, fun _ => Frame.crcOk_iff,
    fun r => ⟨responseBody r, rfl, rfl⟩, by decide +kernel⟩
  case step => rw [crc8_concat, crcByte_eq_iterate, crcShift_eq_ite]

end Sys2Proof.Proofs
end

section
/-! PROOFS. What every step keeps of the sessions, the cadence timers, the gate and the profiles (R81, R87–R91, R127,
R135, R159): each invariant reads a few fields of the hub, and the operations that write none of them keep it. -/

namespace Sys2Proof.Machine

variable {s t : State} {p : Port}

/-- Properties that every operation keeps are kept together. -/
theorem Preserved.and {P Q : State → Prop} (KP : Preserved P) (KQ : Preserved Q) : Preserved fun s => P s ∧ Q s where
  pending s l h := ⟨KP.pending s l h.1, KQ.pending s l h.2⟩
  host s p x hr h := ⟨KP.host s p x hr h.1, KQ.host s p x hr h.2⟩
  chipSelect s p low hr h := ⟨KP.chipSelect s p low hr h.1, KQ.chipSelect s p low hr h.2⟩
  deviceReset s h := ⟨KP.deviceReset s h.1, KQ.deviceReset s h.2⟩
  release s quiet hr h := ⟨KP.release s quiet hr h.1, KQ.release s quiet hr h.2⟩
  quiet s level hr h := ⟨KP.quiet s level hr h.1, KQ.quiet s level hr h.2⟩
  tick s hr h := ⟨KP.tick s hr h.1, KQ.tick s hr h.2⟩
  takeTick s p hr h := ⟨KP.takeTick s p hr h.1, KQ.takeTick s p hr h.2⟩
  openSession s p hr h := ⟨KP.openSession s p hr h.1, KQ.openSession s p hr h.2⟩
  closeSession s p hr ho h := ⟨KP.closeSession s p hr ho h.1, KQ.closeSession s p hr ho h.2⟩
  define s p k q hr ho hw hk h := ⟨KP.define s p k q hr ho hw hk h.1, KQ.define s p k q hr ho hw hk h.2⟩
  modify s p k x q hr ho hw hx hown hfl h :=
    ⟨KP.modify s p k x q hr ho hw hx hown hfl h.1, KQ.modify s p k x q hr ho hw hx hown hfl h.2⟩
  delete s p k x hr ho hx hown hfl h :=
    ⟨KP.delete s p k x hr ho hx hown hfl h.1, KQ.delete s p k x hr ho hx hown hfl h.2⟩
  subscribe s p k x hr ho hx hsub hsh h :=
    ⟨KP.subscribe s p k x hr ho hx hsub hsh h.1, KQ.subscribe s p k x hr ho hx hsub hsh h.2⟩
  unsubscribe s p k x hr ho hx hown hsub hfl h :=
    ⟨KP.unsubscribe s p k x hr ho hx hown hsub hfl h.1, KQ.unsubscribe s p k x hr ho hx hown hsub hfl h.2⟩
  recalibrate s p k x hr ho hx hsub h :=
    ⟨KP.recalibrate s p k x hr ho hx hsub h.1, KQ.recalibrate s p k x hr ho hx hsub h.2⟩
  setProfile s p i pf hr ho hc ht hn h :=
    ⟨KP.setProfile s p i pf hr ho hc ht hn h.1, KQ.setProfile s p i pf hr ho hc ht hn h.2⟩
  setStanding s p ks hr ho hw hd hsub h :=
    ⟨KP.setStanding s p ks hr ho hw hd hsub h.1, KQ.setStanding s p ks hr ho hw hd hsub h.2⟩
  sweep s p ks hr ho hw hne hd hsub hroom h :=
    ⟨KP.sweep s p ks hr ho hw hne hd hsub hroom h.1, KQ.sweep s p ks hr ho hw hne hd hsub hroom h.2⟩
  cancel s p id r hr ho hm hid hp h := ⟨KP.cancel s p id r hr ho hm hid hp h.1, KQ.cancel s p id r hr ho hm hid hp h.2⟩
  setCadence s p c hr ho hc h := ⟨KP.setCadence s p c hr ho hc h.1, KQ.setCadence s p c hr ho hc h.2⟩
  setGate s p g hr ho hg hh h := ⟨KP.setGate s p g hr ho hg hh h.1, KQ.setGate s p g hr ho hg hh h.2⟩
  fetch s p n hr ho hn h := ⟨KP.fetch s p n hr ho hn h.1, KQ.fetch s p n hr ho hn h.2⟩
  ack s p seq i hr ho hi h := ⟨KP.ack s p seq i hr ho hi h.1, KQ.ack s p seq i hr ho hi h.2⟩
  dischargeEnd s l hr h := ⟨KP.dischargeEnd s l hr h.1, KQ.dischargeEnd s l hr h.2⟩
  phaseEnd s l hr h := ⟨KP.phaseEnd s l hr h.1, KQ.phaseEnd s l hr h.2⟩
  transferEnd s l c hr h := ⟨KP.transferEnd s l c hr h.1, KQ.transferEnd s l c hr h.2⟩
  pulseEnd s l hr h := ⟨KP.pulseEnd s l hr h.1, KQ.pulseEnd s l hr h.2⟩

/-! ## Profiles -/

theorem State.ProfileInv.of_eq (h : s.ProfileInv) (hp : t.profiles = s.profiles) : t.ProfileInv := by
  unfold State.ProfileInv
  rw [hp]
  exact h

theorem lengthWellFormed_iff {n : Nat} : lengthWellFormed n = true ↔ 2 ≤ n ∧ n ≤ 64 := by
  simp [lengthWellFormed]

theorem State.ProfileInv.set (h : s.ProfileInv) (i : ProfileNo) {pf : Profile} (hc : lengthWellFormed pf.charge = true)
    (ht : lengthWellFormed pf.transfer = true) : State.ProfileInv { s with profiles := s.profiles.set i.val pf i.isLt } := by
  intro j
  by_cases hj : i = j
  · subst hj
    simpa [and_assoc] using And.intro (lengthWellFormed_iff.1 hc) (lengthWellFormed_iff.1 ht)
  · simpa [Vector.getElem_set, Fin.val_ne_of_ne hj] using h j

theorem profileInv_deviceReset (s : State) : s.deviceReset.ProfileInv := by
  intro i
  simp [State.deviceReset, State.reset, Config.profileResetLength]

theorem profileInv_preserved : Preserved State.ProfileInv where
  pending _ _ h := h.of_eq rfl
  host _ _ _ _ h := h.of_eq (by simp)
  chipSelect _ _ _ _ h := h.of_eq (by simp)
  deviceReset s _ := profileInv_deviceReset s
  release _ _ _ h := h.of_eq (by simp)
  quiet _ _ _ h := h.of_eq (by simp)
  tick _ _ h := h.of_eq (by simp)
  takeTick _ _ _ h := h.of_eq (by simp)
  openSession _ _ _ h := h.of_eq (by simp)
  closeSession _ _ _ _ h := h.of_eq (by simp)
  define _ _ _ _ _ _ _ _ h := h.of_eq (by simp)
  modify _ _ _ _ _ _ _ _ _ _ _ h := h.of_eq (by simp)
  delete _ _ _ _ _ _ _ _ _ h := h.of_eq (by simp)
  subscribe _ _ _ _ _ _ _ _ _ h := h.of_eq (by simp)
  unsubscribe _ _ _ _ _ _ _ _ _ _ h := h.of_eq (by simp)
  recalibrate _ _ _ _ _ _ _ _ h := h.of_eq (by simp)
  setProfile _ _ i _ _ _ hc ht _ h := h.set i hc ht
  setStanding _ _ _ _ _ _ _ _ h := h.of_eq (by simp)
  sweep _ _ _ _ _ _ _ _ _ _ h := h.of_eq (by simp)
  cancel _ _ _ _ _ _ _ _ _ h := h.of_eq (by simp)
  setCadence _ _ _ _ _ _ h := h.of_eq (by simp)
  setGate _ _ _ _ _ _ _ h := h.of_eq (by simp)
  fetch _ _ _ _ _ _ h := h.of_eq (by simp)
  ack _ _ _ _ _ _ _ h := h.of_eq (by simp)
  dischargeEnd _ _ _ h := h.of_eq (by simp)
  phaseEnd _ _ _ h := h.of_eq (by simp)
  transferEnd _ _ _ _ h := h.of_eq (by simp)
  pulseEnd _ _ _ h := h.of_eq (by simp)

/-! ## Sessions, timers, gate -/

theorem nextSession_range (n : Nat) : 1 ≤ nextSession n ∧ nextSession n ≤ 255 := by
  unfold nextSession
  split <;> omega

/-- One timer's part of `State.CadenceInv`, for a port whose session is OPEN or not. -/
def Cadence.Ranged (c : Cadence) (isOpen : Bool) : Prop :=
  (c.running = true → isOpen = true) ∧ 1 ≤ c.counter ∧ c.counter ≤ 50000 ∧ 5 ≤ c.latch ∧ c.latch ≤ 50000 ∧
    (c.running = false → c.owed = 0)

theorem State.cadenceInv_iff : s.CadenceInv ↔ ∀ p, (s.cadence p).Ranged (s.session p).isOpen := Iff.rfl

namespace Cadence.Ranged

variable {c : Cadence} {isOpen : Bool} {n : Nat}

theorem reachedByTick (h : c.Ranged isOpen) : c.reachedByTick.Ranged isOpen := by
  obtain ⟨hopen, hpos, hmax, hlow, hhigh, howed⟩ := h
  unfold Cadence.reachedByTick
  split
  · refine ⟨hopen, ?_, ?_, hlow, hhigh, by simp_all⟩ <;> dsimp only <;> omega
  · exact ⟨hopen, hpos, hmax, hlow, hhigh, howed⟩

theorem counted (h : c.Ranged isOpen) (hc : 1 < c.counter) (owed : Nat) (hrun : c.running = true) :
    Ranged { c with counter := c.counter - 1, owed := owed } isOpen := by
  obtain ⟨hopen, -, hmax, hlow, hhigh, -⟩ := h
  exact ⟨hopen, by dsimp only; omega, by dsimp only; omega, hlow, hhigh, by simp [hrun]⟩

theorem reloaded (h : c.Ranged isOpen) (owed : Nat) (hrun : c.running = true) :
    Ranged { c with counter := c.latch, owed := owed } isOpen := by
  obtain ⟨hopen, -, -, hlow, hhigh, -⟩ := h
  exact ⟨hopen, by dsimp only; omega, hhigh, hlow, hhigh, by simp [hrun]⟩

theorem stop (h : c.Ranged isOpen) (isOpen' : Bool) : c.stop.Ranged isOpen' := by
  obtain ⟨-, hpos, hmax, hlow, hhigh, -⟩ := h
  exact ⟨by simp [Cadence.stop], hpos, hmax, hlow, hhigh, fun _ => rfl⟩

theorem load (hn : periodWellFormed n = true) : (c.load n).Ranged true := by
  obtain ⟨hlow, hhigh⟩ : 5 ≤ n ∧ n ≤ 50000 := by simpa [periodWellFormed] using hn
  exact ⟨fun _ => rfl, by dsimp only [Cadence.load]; omega, hhigh, hlow, hhigh, by simp [Cadence.load]⟩

theorem stage (h : c.Ranged true) (hn : periodWellFormed n = true) : (c.stage n).Ranged true := by
  obtain ⟨hlow, hhigh⟩ : 5 ≤ n ∧ n ≤ 50000 := by simpa [periodWellFormed] using hn
  obtain ⟨hopen, hpos, hmax, -, -, howed⟩ := h
  exact ⟨hopen, hpos, hmax, hlow, hhigh, howed⟩

theorem resume (h : c.Ranged true) : c.resume.Ranged true := by
  unfold Cadence.resume
  split
  · exact h
  · obtain ⟨-, -, -, hlow, hhigh, -⟩ := h
    exact ⟨fun _ => rfl, by dsimp only; omega, hhigh, hlow, hhigh, fun _ => rfl⟩

theorem reset : Ranged { running := false, counter := 1000, latch := 1000, owed := 0 } false := by
  simp [Ranged]

/-- A session that opens leaves its timer in range. -/
theorem opened (h : c.Ranged isOpen) : c.Ranged true := ⟨fun _ => rfl, h.2⟩

end Cadence.Ranged

/-- The sessions, and what a port has only while its session is OPEN: a running timer and the gate. -/
def State.ControlInv (s : State) : Prop := s.SessionInv ∧ s.CadenceInv ∧ s.GateInv

namespace State

theorem SessionInv.of_eq (h : s.SessionInv) (hs : ∀ p, t.session p = s.session p) : t.SessionInv := by
  intro p
  rw [hs]
  exact h p

theorem CadenceInv.of_eq (h : s.CadenceInv) (hs : ∀ p, t.session p = s.session p)
    (hc : ∀ p, t.cadence p = s.cadence p) : t.CadenceInv := by
  intro p
  rw [hs, hc]
  exact h p

theorem GateInv.of_eq (h : s.GateInv) (hs : ∀ p, t.session p = s.session p) (hg : t.gate = s.gate) : t.GateInv := by
  simpa only [GateInv, hs, hg] using h

theorem ControlInv.of_eq (h : s.ControlInv) (hs : ∀ p, t.session p = s.session p) (hc : ∀ p, t.cadence p = s.cadence p)
    (hg : t.gate = s.gate) : t.ControlInv := ⟨h.1.of_eq hs, h.2.1.of_eq hs hc, h.2.2.of_eq hs hg⟩

/-- One port's timer is written, in its range. -/
theorem ControlInv.of_cadence (h : s.ControlInv) (hs : ∀ q, t.session q = s.session q) (hg : t.gate = s.gate)
    (hc : ∀ q, (t.cadence q).Ranged (s.session q).isOpen) : t.ControlInv :=
  ⟨h.1.of_eq hs, fun q => by rw [hs]; exact hc q, h.2.2.of_eq hs hg⟩

/-- The gate is written: its observed state formed, its holder an OPEN port. -/
theorem ControlInv.of_gate (h : s.ControlInv) (hs : ∀ q, t.session q = s.session q) (hc : ∀ q, t.cadence q = s.cadence q)
    (hobs : t.gate.observed = observedState t.gate.settings t.gate.line)
    (hhold : ∀ q, t.gate.holder = some q → (s.session q).isOpen = true)
    (hlim : 1 ≤ t.gate.settings.abortLimit ∧ t.gate.settings.abortLimit ≤ 8) : t.ControlInv :=
  ⟨h.1.of_eq hs, h.2.1.of_eq hs hc, hobs, fun q hq => by rw [hs]; exact hhold q hq, hlim⟩

theorem ControlInv.abortLimit_le (h : s.ControlInv) : s.gate.settings.abortLimit ≤ 8 := by
  obtain ⟨-, -, -, -, -, hmax⟩ := h
  exact hmax

theorem controlInv_deviceReset (s : State) : s.deviceReset.ControlInv := by
  refine ⟨fun p => by simp, fun p => ?_, ?_⟩
  · rw [deviceReset_session, deviceReset_cadence]
    exact Cadence.Ranged.reset
  · simp [GateInv, Gate.reset, observedState, Config.abortLimitReset]

theorem ControlInv.quietChange (h : s.ControlInv) (level : Level) : (s.quietChange level).ControlInv := by
  obtain ⟨-, -, -, hhold, hlim⟩ := id h
  refine h.of_gate (by simp) (by simp) ?_ ?_ ?_ <;> unfold State.quietChange <;> rw [formObserved_gate]
  · exact hhold
  · exact hlim

theorem ControlInv.applyGate (h : s.ControlInv) (ho : (s.session p).isOpen = true) {g : GateSettings}
    (hg : g.wellFormed = true) : (s.applyGate p g).ControlInv := by
  refine h.of_gate (by simp) (by simp) ?_ ?_ ?_ <;> unfold State.applyGate <;>
    rw [roundStartCheck_gate, formObserved_gate]
  · intro q hq
    have hq : p = q := by simp_all
    exact hq ▸ ho
  · simpa [GateSettings.wellFormed] using hg

theorem ControlInv.timeBaseTick (h : s.ControlInv) : s.timeBaseTick.ControlInv :=
  h.of_cadence (by simp) (by simp) fun q => by
    rw [timeBaseTick_cadence]
    exact Cadence.Ranged.reachedByTick (h.2.1 q)

theorem ControlInv.setCadence (h : s.ControlInv) {c : Cadence} (hc : c.Ranged (s.session p).isOpen) :
    (s.setCadence p c).ControlInv :=
  h.of_cadence (by simp) (by simp) fun q => by
    rw [setCadence_cadence]
    split
    · exact ‹q = p› ▸ hc
    · exact h.2.1 q

theorem ControlInv.takeTick (h : s.ControlInv) : (s.takeTick p).ControlInv := by
  unfold State.takeTick
  dsimp only
  split
  · rename_i hrun
    have hrun : (s.cadence p).running = true := by simp_all
    split
    · exact h.setCadence (Cadence.Ranged.counted (h.2.1 p) ‹_› _ hrun)
    · exact (h.setCadence (Cadence.Ranged.reloaded (h.2.1 p) ((s.cadence p).owed - 1) hrun)).of_eq (by simp) (by simp) (by simp)
  · exact h

theorem ControlInv.openNew (h : s.ControlInv) : (s.openNew p).ControlInv := by
  obtain ⟨hsess, hcad, hobs, hhold, hlim⟩ := h
  refine ⟨fun q => ?_, fun q => ?_, by simpa using hobs, fun q hq => ?_, by simpa using hlim⟩ <;>
    rw [openNew_session]
  · split
    · simpa using nextSession_range _
    · exact hsess q
  · rw [openNew_cadence]
    split
    · exact Cadence.Ranged.opened (hcad q)
    · exact hcad q
  · split
    · rfl
    · exact hhold q (by simpa using hq)

theorem ControlInv.teardown (h : s.ControlInv) : (s.teardown p).ControlInv := by
  obtain ⟨hsess, hcad, hobs, hhold, hlim⟩ := h
  refine ⟨hsess.of_eq (by simp), fun q => ?_, by simpa using hobs, fun q hq => ?_, by simpa using hlim⟩
  · rw [teardown_cadence, teardown_session]
    split
    · exact ‹q = p› ▸ Cadence.Ranged.stop (hcad p) _
    · exact hcad q
  · rw [teardown_session]
    rw [teardown_gate] at hq
    exact hhold q (by simp_all)

theorem ControlInv.applyOpen (h : s.ControlInv) : (s.applyOpen p).ControlInv := by
  unfold State.applyOpen
  split
  · exact h.teardown.openNew
  · exact h.openNew

theorem ControlInv.applyClose (h : s.ControlInv) : (s.applyClose p).ControlInv := by
  obtain ⟨hsess, hcad, hobs, hhold, hlim⟩ := h.teardown (p := p)
  refine ⟨fun q => ?_, fun q => ?_, hobs, fun q hq => ?_, hlim⟩ <;>
    simp only [State.applyClose, setSession_session, setSession_cadence] <;> split
  · obtain ⟨-, -, hmax⟩ := hsess p
    simpa using hmax
  · exact hsess q
  · subst q
    rw [teardown_cadence, if_pos rfl]
    exact Cadence.Ranged.stop (h.2.1 p) _
  · exact hcad q
  · subst q
    simp [State.applyClose] at hq
  · exact hhold q hq

theorem controlInv_preserved : Preserved ControlInv where
  pending _ _ h := h.of_eq (fun _ => rfl) (fun _ => rfl) rfl
  host _ _ _ _ h := h.of_eq (by simp) (by simp) (by simp)
  chipSelect _ _ _ _ h := h.of_eq (by simp) (by simp) (by simp)
  deviceReset s _ := controlInv_deviceReset s
  release s _ _ h := by
    obtain ⟨-, -, -, hhold, hlim⟩ := id h
    exact h.of_gate (by simp) (by simp) (by simp) (by simpa using hhold) (by simpa using hlim)
  quiet _ level _ h := h.quietChange level
  tick _ _ h := h.timeBaseTick
  takeTick _ _ _ h := h.takeTick
  openSession _ _ _ h := h.applyOpen
  closeSession _ _ _ _ h := h.applyClose
  define _ _ _ _ _ _ _ _ h := h.of_eq (by simp) (by simp) (by simp)
  modify _ _ _ _ _ _ _ _ _ _ _ h := h.of_eq (by simp) (by simp) (by simp)
  delete _ _ _ _ _ _ _ _ _ h := h.of_eq (by simp) (by simp) (by simp)
  subscribe _ _ _ _ _ _ _ _ _ h := h.of_eq (by simp) (by simp) (by simp)
  unsubscribe _ _ _ _ _ _ _ _ _ _ h := h.of_eq (by simp) (by simp) (by simp)
  recalibrate _ _ _ _ _ _ _ _ h := h.of_eq (by simp) (by simp) (by simp)
  setProfile _ _ _ _ _ _ _ _ _ h := h.of_eq (fun _ => rfl) (fun _ => rfl) rfl
  setStanding _ _ _ _ _ _ _ _ h := h.of_eq (by simp) (by simp) (by simp)
  sweep _ _ _ _ _ _ _ _ _ _ h := h.of_eq (by simp) (by simp) (by simp)
  cancel _ _ _ _ _ _ _ _ _ h := h.of_eq (by simp) (by simp) (by simp)
  setCadence s p c _ ho hc h := by
    have hr : (s.cadence p).Ranged true := ho ▸ h.2.1 p
    refine h.setCadence (ho ▸ ?_)
    rcases hc with ⟨n, hn, rfl⟩ | ⟨n, hn, rfl⟩ | rfl | rfl
    · exact Cadence.Ranged.load hn
    · exact hr.stage hn
    · exact hr.stop _
    · exact hr.resume
  setGate _ _ _ _ ho hg _ h := h.applyGate ho hg
  fetch _ _ _ _ _ _ h := h.of_eq (by simp) (by simp) (by simp)
  ack _ _ _ _ _ _ _ h := h.of_eq (by simp) (by simp) (by simp)
  dischargeEnd _ _ _ h := h.of_eq (by simp) (by simp) (by simp)
  phaseEnd _ _ _ h := h.of_eq (by simp) (by simp) (by simp)
  transferEnd _ _ _ _ h := h.of_eq (by simp) (by simp) (by simp)
  pulseEnd _ _ _ h := h.of_eq (by simp) (by simp) (by simp)

end State

end Sys2Proof.Machine

namespace Sys2Proof.Proofs

open Sys2Proof.Machine

/-- Settles O53: the sessions, timers and gate are kept together, the profiles on their own. -/
theorem stepKeepsSessionsTimersAndGate : Obligations.StepKeepsSessionsTimersAndGate := by
  intro s t ⟨hsess, hcad, hgate, hprof⟩ hstep
  obtain ⟨hsess', hcad', hgate'⟩ := State.controlInv_preserved.step ⟨hsess, hcad, hgate⟩ hstep
  exact ⟨hsess', hcad', hgate', profileInv_preserved.step hprof hstep⟩

end Sys2Proof.Proofs
end

section
/-! PROOFS. What every step keeps of the subscriber sets and the standing lists (R6, R8, R30). A round touches the key
fields, the last readings and the marks of a slot record and never its deed: its owner, its parameters and its
subscribers. -/

namespace Sys2Proof.Machine

variable {s t u : State} {p : Port} {k : SlotNo}

/-! ## What a reading handed on makes of a slot record -/

/-- The record of a slot to which a reading was handed at a tick (R57). -/
def SlotRecord.withReading (r : SlotRecord) (rd : Reading) (tick : Word) : SlotRecord :=
  { r with last := some { reading := rd, tick := tick }, key := (takeReading r.params r.key rd).1 }

theorem State.handReading_slot (s : State) (k k' : SlotNo) (rd : Reading) :
    (s.handReading k rd).slot k' =
      if k' = k then (s.slot k).map (·.withReading rd s.tick) else s.slot k' := by
  unfold State.handReading
  split
  · split <;> simp_all
  · rename_i r hr
    dsimp only
    split <;> split <;> simp [hr, SlotRecord.withReading]

/-! ## Deeds -/

/-- What a slot record says of who may do what with the slot, and how it is measured (R2, R6). -/
def SlotRecord.deed (r : SlotRecord) : Port × Params × PerPort Bool := (r.owner, r.params, r.subs)

/-- The slot table of `t` has the deeds of that of `s`. -/
def SameDeeds (s t : State) : Prop := ∀ k, (t.slot k).map SlotRecord.deed = (s.slot k).map SlotRecord.deed

namespace SameDeeds

theorem of_slot (h : ∀ k, t.slot k = s.slot k) : SameDeeds s t := fun k => by rw [h k]

theorem refl (s : State) : SameDeeds s s := of_slot fun _ => rfl

theorem trans (h : SameDeeds s t) (h' : SameDeeds t u) : SameDeeds s u := fun k => (h' k).trans (h k)

/-- A defined slot was defined before, with the same owner, parameters and subscribers. -/
theorem record (h : SameDeeds s t) {r : SlotRecord} (hr : t.slot k = some r) :
    ∃ r₀, s.slot k = some r₀ ∧ r.owner = r₀.owner ∧ r.params = r₀.params ∧ r.subs = r₀.subs := by
  have hk := h k
  rw [hr, Option.map_some, eq_comm, Option.map_eq_some_iff] at hk
  obtain ⟨r₀, hr₀, hdeed⟩ := hk
  simp only [SlotRecord.deed, Prod.mk.injEq] at hdeed
  obtain ⟨howner, hparams, hsubs⟩ := hdeed
  exact ⟨r₀, hr₀, howner.symm, hparams.symm, hsubs.symm⟩

theorem isSome (h : SameDeeds s t) (k : SlotNo) : (t.slot k).isSome = (s.slot k).isSome := by
  simpa using congrArg Option.isSome (h k)

theorem laneOf (h : SameDeeds s t) (k : SlotNo) : t.laneOf k = s.laneOf k := by
  have hk := congrArg (Option.map fun d => d.2.1.lane) (h k)
  simpa [State.laneOf, SlotRecord.deed, Function.comp_def] using hk

theorem subscribes (h : SameDeeds s t) (p : Port) (k : SlotNo) : t.subscribes p k = s.subscribes p k := by
  have hk := congrArg (Option.map fun d => d.2.2.get p) (h k)
  unfold State.subscribes
  cases hs : s.slot k <;> cases ht : t.slot k <;> simp_all [SlotRecord.deed]

theorem of_map {f : SlotNo → SlotRecord → SlotRecord} (hf : ∀ k r, (f k r).deed = r.deed)
    (h : ∀ k, t.slot k = (s.slot k).map (f k) ∨ t.slot k = s.slot k) : SameDeeds s t := by
  intro k
  rcases h k with h | h <;> simp [h, Function.comp_def, hf]

/-- A record written with its old deed. -/
theorem setSlot {r r' : SlotRecord} (hr : s.slot k = some r) (hdeed : r'.deed = r.deed) :
    SameDeeds s (s.setSlot k (some r')) := by
  intro k'
  rw [State.setSlot_slot]
  split
  · subst k'
    simp [hr, hdeed]
  · rfl

theorem markInFlight (s : State) (round : Round) (b : Bool) : SameDeeds s (s.markInFlight round b) :=
  of_map (f := fun _ r => { r with inFlight := b }) (fun _ _ => rfl) fun k => by
    rw [State.markInFlight_slot]
    exact ite_eq_or_eq _ _ _

theorem roundStart (s : State) : SameDeeds s s.roundStart :=
  of_map (f := fun _ r => { r with inFlight := true }) (fun _ _ => rfl) fun k => by
    rw [State.roundStart_slot]
    exact ite_eq_or_eq _ _ _

theorem roundStartCheck (s : State) : SameDeeds s s.roundStartCheck := by
  unfold State.roundStartCheck
  split
  · exact roundStart s
  · exact refl s

theorem handReading (s : State) (k : SlotNo) (rd : Reading) : SameDeeds s (s.handReading k rd) :=
  of_map (f := fun _ r => r.withReading rd s.tick) (fun _ _ => rfl) fun k' => by
    rw [State.handReading_slot]
    split
    · exact .inl (‹k' = k› ▸ rfl)
    · exact .inr rfl

theorem walkQueue (s : State) (fate : SweepRequest → Fate) : SameDeeds s (s.walkQueue fate) := of_slot (by simp)

theorem idleLanes (s : State) : SameDeeds s s.idleLanes := of_slot (by simp)

theorem handLanes (round : Round) (ls : List LaneNo) (s : State) : SameDeeds s (ls.foldl (State.handLane round) s) := by
  induction ls generalizing s with
  | nil => exact refl s
  | cons l ls ih =>
    refine trans ?_ (ih _)
    unfold State.handLane
    split
    · exact handReading _ _ _
    · exact refl s

theorem clearRound (s : State) (round : Round) : SameDeeds s (s.clearRound round) := by
  unfold State.clearRound
  exact trans (of_slot fun _ => rfl) (markInFlight _ round false)

theorem completeRound (s : State) (round : Round) : SameDeeds s (s.completeRound round) :=
  (handLanes round _ s).trans <| (walkQueue _ _).trans <| (clearRound _ _).trans (roundStartCheck _)

theorem abortRound (s : State) (round : Round) : SameDeeds s (s.abortRound round) :=
  (walkQueue s _).trans <| (clearRound _ _).trans <| (idleLanes _).trans (roundStartCheck _)

theorem formObserved (s : State) : SameDeeds s s.formObserved := by
  unfold State.formObserved
  dsimp only
  refine trans (t := { s with gate := { s.gate with observed := observedState s.gate.settings s.gate.line } })
    (of_slot fun _ => rfl) ?_
  split
  · split
    · exact abortRound _ _
    · exact refl _
  · exact roundStartCheck _
  · exact refl _

theorem quietChange (s : State) (level : Level) : SameDeeds s (s.quietChange level) :=
  trans (t := { s with gate := { s.gate with line := level } }) (of_slot fun _ => rfl) (formObserved _)

theorem applyGate (s : State) (p : Port) (g : GateSettings) : SameDeeds s (s.applyGate p g) :=
  trans (t := { s with gate := { s.gate with settings := g, holder := if g.enabled then some p else none } })
    (of_slot fun _ => rfl) ((formObserved _).trans (roundStartCheck _))

theorem addRequest (s : State) (p : Port) (o : Origin) (ks : List SlotNo) :
    SameDeeds s (s.addRequest p o ks).roundStartCheck :=
  trans (of_slot fun _ => rfl) (roundStartCheck _)

theorem expiryAtQueue (s : State) (p : Port) : SameDeeds s (s.expiryAtQueue p) := by
  unfold State.expiryAtQueue
  split
  · exact refl s
  · split
    · exact of_slot (by simp)
    · split
      · exact of_slot (by simp)
      · exact addRequest _ _ _ _

theorem takeTick (s : State) (p : Port) : SameDeeds s (s.takeTick p) := by
  unfold State.takeTick
  dsimp only
  split
  · split
    · exact of_slot (by simp)
    · exact trans (of_slot (by simp)) (expiryAtQueue _ _)
  · exact refl s

theorem completionCheck (s : State) : SameDeeds s s.completionCheck := by
  unfold State.completionCheck
  split
  · exact refl s
  · split
    · exact completeRound _ _
    · exact refl s

theorem lanePulseEnd (s : State) (l : LaneNo) : SameDeeds s (s.lanePulseEnd l) := by
  unfold State.lanePulseEnd
  dsimp only
  split
  · exact trans (of_slot (by simp)) (completionCheck _)
  · exact of_slot (by simp)

end SameDeeds

/-! ## Subscriptions -/

/-- R6 and R8, the parts of them that read the deeds, the sessions and the standing lists. -/
def State.RightsInv (s : State) : Prop := s.SubscriberInv ∧ s.StandingInv

@[simp] theorem onlySub_get (p q : Port) : (onlySub p).get q = decide (q = p) := by
  cases p <;> cases q <;> rfl

theorem State.subscribes_iff : s.subscribes p k = true ↔ ∃ r, s.slot k = some r ∧ r.subs.get p = true := by
  unfold State.subscribes
  split <;> simp_all

namespace State

variable {r : SlotRecord}

/-- One record's part of `State.SubscriberInv`. -/
def OwnedRightly (s : State) (r : SlotRecord) : Prop :=
  r.subs.get r.owner = true ∧ (r.params.shared = false → r.subs.get r.owner.other = false) ∧
    ((s.session r.owner.other).isOpen = false → r.subs.get r.owner.other = false)

theorem SubscriberInv.record (h : s.SubscriberInv) (hr : s.slot k = some r) : s.OwnedRightly r := h k r hr

theorem RightsInv.of_deeds (h : s.RightsInv) (hd : SameDeeds s t) (hs : ∀ p, t.session p = s.session p)
    (hst : ∀ p, t.standing p = s.standing p) : t.RightsInv := by
  obtain ⟨hsub, hstand⟩ := h
  refine ⟨fun k r hr => ?_, fun p => ?_⟩
  · obtain ⟨r₀, hr₀, howner, hparams, hsubs⟩ := hd.record hr
    rw [howner, hparams, hsubs, hs]
    exact hsub k r₀ hr₀
  · rw [hst, hs]
    simpa only [hd.subscribes] using hstand p

theorem RightsInv.of_slot (h : s.RightsInv) (hk : ∀ k, t.slot k = s.slot k) (hs : ∀ p, t.session p = s.session p)
    (hst : ∀ p, t.standing p = s.standing p) : t.RightsInv := h.of_deeds (.of_slot hk) hs hst

/-- The record of one slot is written or removed, and the standing lists lose entries at most. -/
theorem RightsInv.of_write (h : s.RightsInv) (hs : ∀ p, t.session p = s.session p)
    (hne : ∀ k', k' ≠ k → t.slot k' = s.slot k') (hk : ∀ r, t.slot k = some r → s.OwnedRightly r)
    (hsub : ∀ q, (t.standing q).Sublist (s.standing q)) (hkeep : ∀ q, k ∈ t.standing q → t.subscribes q k = true) :
    t.RightsInv := by
  obtain ⟨hsubs, hstand⟩ := h
  refine ⟨fun k' r hr => ?_, fun q => ?_⟩
  · rw [hs]
    by_cases hkk : k' = k
    · exact hk r (hkk ▸ hr)
    · exact hsubs k' r (hne k' hkk ▸ hr)
  · obtain ⟨hnodup, hmem, hclosed⟩ := hstand q
    refine ⟨hnodup.sublist (hsub q), fun k' hk' => ?_, fun ho => ?_⟩
    · by_cases hkk : k' = k
      · exact hkk ▸ hkeep q (hkk ▸ hk')
      · have := hmem k' ((hsub q).subset hk')
        rwa [subscribes_iff, ← hne k' hkk, ← subscribes_iff] at this
    · exact List.sublist_nil.1 (hclosed (hs q ▸ ho) ▸ hsub q)

theorem RightsInv.subscribes_of_standing (h : s.RightsInv) {q : Port} (hk : k ∈ s.standing q) (hr : s.slot k = some r) :
    r.subs.get q = true := by
  obtain ⟨r', hr', hsub⟩ := subscribes_iff.1 ((h.2 q).2.1 k hk)
  obtain rfl : r' = r := by simpa [hr] using hr'.symm
  exact hsub

theorem RightsInv.defined_of_standing (h : s.RightsInv) {q : Port} (hk : k ∈ s.standing q) : s.slot k ≠ none := by
  obtain ⟨r', hr', -⟩ := subscribes_iff.1 ((h.2 q).2.1 k hk)
  simp [hr']

theorem ownedRightly_newRecord (s : State) (p : Port) (q : Params) : s.OwnedRightly (newRecord p q) := by
  simp [OwnedRightly, newRecord]

theorem RightsInv.define (h : s.RightsInv) (hk : s.slot k = none) (p : Port) (q : Params) :
    (s.setSlot k (some (newRecord p q))).RightsInv := by
  refine h.of_write (k := k) (by simp) (fun k' hk' => by simp [hk']) (fun r hr => ?_) (by simp) fun q hq => ?_
  · obtain rfl : newRecord p _ = r := by simpa using hr
    exact ownedRightly_newRecord _ _ _
  · exact absurd hk (h.defined_of_standing hq)

theorem RightsInv.subscribe (h : s.RightsInv) (hr : s.slot k = some r) (ho : (s.session p).isOpen = true)
    (hsh : r.params.shared = true) : (s.setSlot k (some { r with subs := r.subs.set p true })).RightsInv := by
  refine h.of_write (k := k) (by simp) (fun k' hk' => by simp [hk']) (fun r' hr' => ?_) (by simp) fun q hq => ?_
  · obtain rfl : _ = r' := by simpa using hr'
    obtain ⟨hown, -, hclosed⟩ := h.1.record hr
    refine ⟨by simp [hown], by simp [hsh], fun hc => ?_⟩
    have hne : r.owner.other ≠ p := by
      rintro rfl
      simp_all
    simpa [hne] using hclosed hc
  · rw [setSlot_standing] at hq
    simp [subscribes_iff, h.subscribes_of_standing hq hr]

/-- A write to slot `k` before the removal cascade that takes the slot from the losing ports' standing lists (R20). -/
theorem RightsInv.cascade (h : s.RightsInv) {r' : Option SlotRecord} (hr : s.slot k = some r) (losing : Port → Bool)
    (hs : ∀ p, t.session p = s.session p) (hne : ∀ k', k' ≠ k → t.slot k' = s.slot k') (hk : t.slot k = r')
    (hst : ∀ q, t.standing q = if losing q = true then (s.standing q).filter (fun x => decide (x ≠ k)) else s.standing q)
    (hown : ∀ x, r' = some x → s.OwnedRightly x)
    (hkeep : ∀ q, losing q = false → r.subs.get q = true → ∃ x, r' = some x ∧ x.subs.get q = true) : t.RightsInv := by
  refine h.of_write hs hne (fun x hx => hown x (hk ▸ hx)) (fun q => ?_) fun q hq => ?_ <;> rw [hst] at *
  · split
    · exact List.filter_sublist
    · exact List.Sublist.refl _
  · split at hq
    · simp at hq
    · rename_i hl
      rw [subscribes_iff, hk]
      exact hkeep q (by simpa using hl) (h.subscribes_of_standing hq hr)

theorem RightsInv.delete (h : s.RightsInv) (hr : s.slot k = some r) :
    ((s.cascade k r fun _ => true).setSlot k none).RightsInv :=
  h.cascade (r' := none) hr (fun _ => true) (by simp) (fun k' hk' => by simp [hk']) (by simp) (by simp) (by simp) (by simp)

theorem RightsInv.unsubscribe (h : s.RightsInv) (hr : s.slot k = some r) (hown : r.owner ≠ p) :
    ((s.setSlot k (some { r with subs := r.subs.set p false })).cascade k r fun x => decide (x = p)).RightsInv := by
  refine h.cascade hr (fun x => decide (x = p)) (by simp) (fun k' hk' => by simp [hk']) (by simp; rfl) (by simp)
    (fun x hx => ?_) (by simp +contextual)
  obtain rfl : _ = x := by simpa using hx
  obtain ⟨hsub, -, -⟩ := h.1.record hr
  obtain rfl : p = r.owner.other := Port.eq_other_of_ne (Ne.symm hown)
  simp [OwnedRightly, hsub, hown]

end State

/-! ## MODIFY -/

/-- A MODIFY to `new` takes the slot from a subscribed non-owner (R16). -/
def SlotRecord.unshares (r : SlotRecord) (new : Params) : Bool :=
  r.params.shared && !new.shared && r.subs.get r.owner.other

/-- The hub after the forced RELEASE with which a measurement MODIFY begins (R14). -/
def State.modifyRelease (s : State) (k : SlotNo) (r : SlotRecord) (new : Params) : State :=
  if classify r.params new = .measurement then s.postForcedRelease k r else s

/-- The record that a MODIFY leaves, the subscriber set with it (R13–R16). -/
def SlotRecord.modifiedTo (r : SlotRecord) (new : Params) : SlotRecord :=
  if r.unshares new then { modifiedRecord r new with subs := onlySub r.owner } else modifiedRecord r new

section Modified

variable (r : SlotRecord) (new : Params)

@[simp] theorem modifiedRecord_owner : (modifiedRecord r new).owner = r.owner := by
  unfold modifiedRecord
  split <;> rfl

@[simp] theorem modifiedRecord_subs : (modifiedRecord r new).subs = r.subs := by
  unfold modifiedRecord
  split <;> rfl

@[simp] theorem modifiedRecord_inFlight : (modifiedRecord r new).inFlight = r.inFlight := by
  unfold modifiedRecord
  split <;> rfl

theorem classify_eq_noChange {old new : Params} : classify old new = .noChange ↔ old = new := by
  unfold classify
  split <;> (try split) <;> simp_all

@[simp] theorem modifiedRecord_params : (modifiedRecord r new).params = new := by
  unfold modifiedRecord
  split
  · exact classify_eq_noChange.1 ‹_›
  · rfl
  · rfl

@[simp] theorem modifiedTo_owner : (r.modifiedTo new).owner = r.owner := by
  unfold SlotRecord.modifiedTo
  split <;> simp

@[simp] theorem modifiedTo_params : (r.modifiedTo new).params = new := by
  unfold SlotRecord.modifiedTo
  split <;> simp

@[simp] theorem modifiedTo_inFlight : (r.modifiedTo new).inFlight = r.inFlight := by
  unfold SlotRecord.modifiedTo
  split <;> simp

@[simp] theorem modifiedTo_key : (r.modifiedTo new).key = (modifiedRecord r new).key := by
  unfold SlotRecord.modifiedTo
  split <;> simp

@[simp] theorem modifiedTo_last : (r.modifiedTo new).last = (modifiedRecord r new).last := by
  unfold SlotRecord.modifiedTo
  split <;> simp

theorem modifiedTo_subs : (r.modifiedTo new).subs = if r.unshares new = true then onlySub r.owner else r.subs := by
  unfold SlotRecord.modifiedTo
  split <;> simp

theorem State.setSlot_setSlot (s : State) (k : SlotNo) (x y : Option SlotRecord) :
    (s.setSlot k x).setSlot k y = s.setSlot k y := by
  simp [State.setSlot]

/-- What a MODIFY comes to: the forced RELEASE, the record written, and the removal cascade where it unshares. -/
theorem State.applyModify_eq (s : State) (k : SlotNo) :
    s.applyModify k r new =
      if r.unshares new = true then
        ((s.modifyRelease k r new).setSlot k (some (r.modifiedTo new))).cascade k r fun q => decide (q = r.owner.other)
      else (s.modifyRelease k r new).setSlot k (some (r.modifiedTo new)) := by
  have hu : (r.params.shared && !(modifiedRecord r new).params.shared && r.subs.get r.owner.other) = r.unshares new := by
    simp [SlotRecord.unshares]
  unfold State.applyModify State.unshare SlotRecord.modifiedTo
  simp only [hu, State.setSlot_setSlot]
  split <;> rfl

section Release

variable (s : State) (k : SlotNo) (q : Port)

@[simp] theorem State.modifyRelease_slot (k' : SlotNo) : (s.modifyRelease k r new).slot k' = s.slot k' := by
  unfold State.modifyRelease
  split <;> simp

@[simp] theorem State.modifyRelease_session : (s.modifyRelease k r new).session q = s.session q := by
  unfold State.modifyRelease
  split <;> simp

@[simp] theorem State.modifyRelease_standing : (s.modifyRelease k r new).standing q = s.standing q := by
  unfold State.modifyRelease
  split <;> simp

@[simp] theorem State.modifyRelease_queue : (s.modifyRelease k r new).queue = s.queue := by
  unfold State.modifyRelease
  split <;> simp

@[simp] theorem State.modifyRelease_round : (s.modifyRelease k r new).round = s.round := by
  unfold State.modifyRelease
  split <;> simp

@[simp] theorem State.applyModify_slot (k' : SlotNo) :
    (s.applyModify k r new).slot k' = if k' = k then some (r.modifiedTo new) else s.slot k' := by
  rw [State.applyModify_eq]
  split <;> simp

theorem State.applyModify_standing :
    (s.applyModify k r new).standing q =
      if r.unshares new = true ∧ q = r.owner.other then (s.standing q).filter (fun x => decide (x ≠ k))
      else s.standing q := by
  rw [State.applyModify_eq]
  split <;> simp [*]

theorem State.applyModify_queue :
    (s.applyModify k r new).queue =
      if r.unshares new = true then
        s.queue.filterMap fun x => (cascadeFate k (fun q => decide (q = r.owner.other)) x).kept
      else s.queue := by
  rw [State.applyModify_eq]
  split <;> simp

end Release

end Modified

namespace State

variable {r : SlotRecord}

theorem RightsInv.modify (h : s.RightsInv) (hr : s.slot k = some r) (q : Params) : (s.applyModify k r q).RightsInv := by
  obtain ⟨hsub, hprivate, hclosed⟩ := h.1.record hr
  refine h.cascade (r' := some (r.modifiedTo q)) hr (fun x => r.unshares q && decide (x = r.owner.other)) (by simp)
    (fun k' hk' => by simp [hk']) (by simp) (fun x => by simp [applyModify_standing]) (fun x hx => ?_)
    fun x hl hx => ⟨_, rfl, ?_⟩
  · obtain rfl : _ = x := by simpa using hx
    unfold OwnedRightly
    rw [modifiedTo_owner, modifiedTo_subs, modifiedTo_params]
    split
    · simp
    · rename_i hu
      refine ⟨hsub, fun hq => ?_, hclosed⟩
      simp only [SlotRecord.unshares, hq, Bool.not_false, Bool.and_true, Bool.and_eq_true, not_and,
        Bool.not_eq_true] at hu
      cases hs : r.params.shared
      · exact hprivate hs
      · exact hu hs
  · rw [modifiedTo_subs]
    split
    · have hne : x ≠ r.owner.other := by simp_all
      obtain rfl : x = r.owner := by simpa using Port.eq_other_of_ne hne
      simp
    · exact hx

/-! ## Teardown -/

theorem RightsInv.teardown (h : s.RightsInv) :
    (s.teardown p).RightsInv ∧
      (∀ k r, (s.teardown p).slot k = some r → r.owner ≠ p → r.subs.get p = false) := by
  have hrecord : ∀ k r, (s.teardown p).slot k = some r →
      ∃ r₀, s.slot k = some r₀ ∧ r = if r₀.owner = p then r₀ else { r₀ with subs := r₀.subs.set p false } := by
    intro k r hr
    rw [teardown_slot, Option.map_eq_some_iff] at hr
    obtain ⟨r₀, hr₀, hr⟩ := hr
    exact ⟨r₀, hr₀, hr.symm⟩
  refine ⟨⟨fun k r hr => ?_, fun q => ?_⟩, fun k r hr hown => ?_⟩
  · obtain ⟨r₀, hr₀, rfl⟩ := hrecord k r hr
    obtain ⟨hsub, hprivate, hclosed⟩ := h.1.record hr₀
    split
    · simpa using And.intro hsub (And.intro hprivate hclosed)
    · rename_i hown
      simp [hsub, Port.eq_other_of_ne (Ne.symm hown)]
  · obtain ⟨hnodup, hmem, hclosed⟩ := h.2 q
    rw [teardown_standing, teardown_session]
    split
    · simp
    · rename_i hq
      refine ⟨hnodup, fun k hk => ?_, hclosed⟩
      obtain ⟨r, hr, hsub⟩ := subscribes_iff.1 (hmem k hk)
      rw [subscribes_iff, teardown_slot, hr]
      refine ⟨_, rfl, ?_⟩
      dsimp only
      split <;> simp [hq, hsub]
  · obtain ⟨r₀, hr₀, rfl⟩ := hrecord k r hr
    split at hown
    · exact absurd ‹_› hown
    · simp [*]

theorem RightsInv.openNew (h : s.RightsInv) : (s.openNew p).RightsInv := by
  refine ⟨fun k r hr => ?_, fun q => ?_⟩
  · obtain ⟨hsub, hprivate, hclosed⟩ := h.1.record (k := k) (by simpa using hr)
    refine ⟨hsub, hprivate, fun hc => hclosed ?_⟩
    rw [openNew_session] at hc
    split at hc
    · cases hc
    · exact hc
  · obtain ⟨hnodup, hmem, hclosed⟩ := h.2 q
    rw [openNew_standing]
    refine ⟨hnodup, hmem, fun hc => hclosed ?_⟩
    rw [openNew_session] at hc
    split at hc
    · cases hc
    · exact hc

theorem RightsInv.applyOpen (h : s.RightsInv) : (s.applyOpen p).RightsInv := by
  unfold State.applyOpen
  split
  · exact h.teardown.1.openNew
  · exact h.openNew

theorem RightsInv.applyClose (h : s.RightsInv) : (s.applyClose p).RightsInv := by
  obtain ⟨⟨hsubs, hstand⟩, hleft⟩ := h.teardown (p := p)
  refine ⟨fun k r hr => ?_, fun q => ?_⟩
  · replace hr : (s.teardown p).slot k = some r := hr
    obtain ⟨hsub, hprivate, hclosed⟩ := hsubs k r hr
    refine ⟨hsub, hprivate, fun hc => ?_⟩
    by_cases hp : r.owner.other = p
    · subst hp
      exact hleft k r hr (by simp)
    · exact hclosed (by simpa [State.applyClose, hp] using hc)
  · obtain ⟨hnodup, hmem, hclosed⟩ := hstand q
    refine ⟨by simpa [State.applyClose] using hnodup, fun k hk => hmem k (by simpa [State.applyClose] using hk),
      fun hc => ?_⟩
    by_cases hq : q = p
    · subst hq
      simp [State.applyClose]
    · simpa [State.applyClose, hq] using hclosed (by simpa [State.applyClose, hq] using hc)

theorem RightsInv.setStanding (h : s.RightsInv) {ks : List SlotNo} (ho : (s.session p).isOpen = true)
    (hw : slotListWellFormed ks = true) (hsub : s.allSubscribed p ks = true) : (s.setStanding p ks).RightsInv := by
  refine ⟨fun k r hr => by simpa using h.1 k r hr, fun q => ?_⟩
  rw [setStanding_standing, setStanding_session]
  split
  · subst q
    obtain ⟨-, hnodup⟩ : ks.length ≤ Config.slotListMax ∧ ks.Nodup := by simpa [slotListWellFormed] using hw
    refine ⟨hnodup, ?_, by simp [ho]⟩
    exact List.all_eq_true.1 hsub
  · exact h.2 q

theorem rightsInv_deviceReset (s : State) : s.deviceReset.RightsInv :=
  ⟨fun k r hr => by simp at hr, fun p => by simp⟩

theorem rightsInv_preserved : Preserved RightsInv where
  pending _ _ h := h.of_slot (fun _ => rfl) (fun _ => rfl) (fun _ => rfl)
  host _ _ _ _ h := h.of_slot (by simp) (by simp) (by simp)
  chipSelect _ _ _ _ h := h.of_slot (by simp) (by simp) (by simp)
  deviceReset s _ := rightsInv_deviceReset s
  release _ _ _ h := h.of_slot (by simp) (by simp) (by simp)
  quiet s level _ h := h.of_deeds (.quietChange s level) (by simp) (by simp)
  tick _ _ h := h.of_slot (by simp) (by simp) (by simp)
  takeTick s p _ h := h.of_deeds (.takeTick s p) (by simp) (by simp)
  openSession _ _ _ h := h.applyOpen
  closeSession _ _ _ _ h := h.applyClose
  define _ p _ q _ _ _ hk h := h.define hk p q
  modify _ _ _ _ q _ _ _ hr _ _ h := h.modify hr q
  delete _ _ _ _ _ _ hr _ _ h := h.delete hr
  subscribe _ _ _ _ _ ho hr _ hsh h := h.subscribe hr ho hsh
  unsubscribe _ _ _ _ _ _ hr hown _ _ h := h.unsubscribe hr hown
  recalibrate s _ k r _ _ hr _ h :=
    h.of_deeds ((SameDeeds.of_slot (by simp)).trans (.setSlot (r := r) (by simpa using hr) rfl)) (by simp) (by simp)
  setProfile _ _ _ _ _ _ _ _ _ h := h.of_slot (fun _ => rfl) (fun _ => rfl) (fun _ => rfl)
  setStanding _ _ _ _ ho hw _ hsub h := h.setStanding ho hw hsub
  sweep s p ks _ _ _ _ _ _ _ h := h.of_deeds (.addRequest s p .command ks) (by simp) (by simp)
  cancel _ _ _ _ _ _ _ _ _ h := h.of_slot (by simp) (by simp) (by simp)
  setCadence _ _ _ _ _ _ h := h.of_slot (by simp) (by simp) (by simp)
  setGate s p g _ _ _ _ h := h.of_deeds (.applyGate s p g) (by simp) (by simp)
  fetch _ _ _ _ _ _ h := h.of_slot (by simp) (by simp) (by simp)
  ack _ _ _ _ _ _ _ h := h.of_slot (by simp) (by simp) (by simp)
  dischargeEnd _ _ _ h := h.of_slot (by simp) (by simp) (by simp)
  phaseEnd _ _ _ h := h.of_slot (by simp) (by simp) (by simp)
  transferEnd _ _ _ _ h := h.of_slot (by simp) (by simp) (by simp)
  pulseEnd s l _ h := h.of_deeds (.lanePulseEnd s l) (by simp) (by simp)

end State

end Sys2Proof.Machine

namespace Sys2Proof.Proofs

open Sys2Proof.Machine

/-- Settles O55: a round keeps the deeds, and each slot command writes one record and the standing lists that it takes
the slot from. -/
theorem stepKeepsSubscriptionsAndStandingLists : Obligations.StepKeepsSubscriptionsAndStandingLists :=
  fun _ _ h hstep => State.rightsInv_preserved.step h hstep

end Sys2Proof.Proofs
end

section
/-! PROOFS. The sweep queue (R25–R29, R94): the sweep ids, what each walk over the queue makes of a request, and what
every step keeps of the queue. Every operation but an admission keeps the requests' tickets in their order and takes
slots from their lists at most (`QueueRuns`). -/

namespace Sys2Proof.Machine

variable {s t u : State} {p : Port} {k : SlotNo} {r r' r'' : SweepRequest} {limit n : Nat}

/-! ## What a walk makes of one request -/

theorem SweepRequest.isEngaged_iff : r.isEngaged = true ↔ r.engaged ≠ [] := by
  simp [SweepRequest.isEngaged]

/-- What is left of a request's list when its engaged slots are credited (R58). -/
def SweepRequest.rest (r : SweepRequest) : List SlotNo := r.remaining.filter fun k => decide (k ∉ r.engaged)

theorem SweepRequest.credited_eq (r : SweepRequest) :
    r.credited =
      { r with remaining := r.rest, measured := r.measured + (r.remaining.length - r.rest.length), engaged := [] } := by
  simp [SweepRequest.credited, SweepRequest.rest]

theorem creditFate_eq (r : SweepRequest) :
    creditFate r =
      if r.engaged = [] then .stays r
      else if r.cancelling = true then .leaves (r.report (cancelledEvent r.credited))
      else if r.rest = [] then .leaves (r.report (doneEvent r.credited))
      else .stays r.credited := by
  have hc : r.credited.cancelling = r.cancelling := rfl
  have hr : r.credited.remaining = r.rest := congrArg SweepRequest.remaining r.credited_eq
  unfold creditFate
  simp only [SweepRequest.isEngaged_iff, hc, hr, List.isEmpty_iff, ite_not]
  rfl

theorem abortFate_eq (limit : Nat) (r : SweepRequest) :
    abortFate limit r =
      if r.engaged = [] then .stays r
      else if r.cancelling = true then .leaves (r.report (cancelledEvent r))
      else if limit ≤ r.aborts + 1 then .leaves (r.report (abortedEvent r))
      else .stays { r with aborts := r.aborts + 1, engaged := [] } := by
  unfold abortFate
  simp only [SweepRequest.isEngaged_iff, ite_not]
  rfl

/-- A request without slot `k`, which counts as skipped (R20). -/
def SweepRequest.without (r : SweepRequest) (k : SlotNo) : SweepRequest :=
  { r with remaining := r.remaining.filter fun y => decide (y ≠ k), skipped := r.skipped + 1 }

theorem cascadeFate_eq (k : SlotNo) (losing : Port → Bool) (r : SweepRequest) :
    cascadeFate k losing r =
      if losing r.port = true ∧ k ∈ r.remaining then
        if (r.without k).remaining = [] then .leaves (r.report (doneEvent (r.without k))) else .stays (r.without k)
      else .stays r := by
  unfold cascadeFate
  simp only [Bool.and_eq_true, List.contains_iff_mem, List.isEmpty_iff]
  rfl

/-- What round completion leaves of a request (R58). -/
theorem creditFate_kept (r : SweepRequest) :
    (creditFate r).kept =
      if r.engaged = [] then some r
      else if r.cancelling = true ∨ r.rest = [] then none
      else some r.credited := by
  rw [creditFate_eq]
  repeat' split
  all_goals simp_all [Fate.kept]

/-- What round abort leaves of a request (R61). -/
theorem abortFate_kept (limit : Nat) (r : SweepRequest) :
    (abortFate limit r).kept =
      if r.engaged = [] then some r
      else if r.cancelling = true ∨ limit ≤ r.aborts + 1 then none
      else some { r with aborts := r.aborts + 1, engaged := [] } := by
  rw [abortFate_eq]
  repeat' split
  all_goals simp_all [Fate.kept]
  omega

/-- What the removal cascade leaves of a request (R20). -/
theorem cascadeFate_kept (k : SlotNo) (losing : Port → Bool) (r : SweepRequest) :
    (cascadeFate k losing r).kept =
      if losing r.port = true ∧ k ∈ r.remaining then
        if (r.without k).remaining = [] then none else some (r.without k)
      else some r := by
  rw [cascadeFate_eq]
  repeat' split
  all_goals rfl

/-- What a teardown leaves of a request (R166). -/
theorem teardownFate_kept (p : Port) (r : SweepRequest) :
    (teardownFate p r).kept =
      if r.port = p then (if r.engaged = [] then none else some { r with cancelling := true, stale := true })
      else some r := by
  unfold teardownFate
  by_cases hp : r.port = p <;> by_cases he : r.engaged = [] <;>
    simp [hp, he, SweepRequest.isEngaged, Fate.kept]

/-- What a CANCEL leaves of a request (R39). -/
theorem cancelFate_kept (id : Nat) (r : SweepRequest) :
    (cancelFate id r).kept =
      if r.id = id then (if r.engaged = [] then none else some { r with cancelling := true }) else some r := by
  unfold cancelFate
  by_cases hp : r.id = id <;> by_cases he : r.engaged = [] <;>
    simp [hp, he, SweepRequest.isEngaged, Fate.kept]

/-! ## What stays of a request -/

/-- What a request is told by, and what counts toward its port's share (R27, R29). -/
def SweepRequest.ticket (r : SweepRequest) : Nat × Port × Origin := (r.id, r.port, r.origin)

/-- What the hub may make of a queued request that stays in the queue, where the abort limit in force is `limit`. -/
structure SweepRequest.Runs (limit : Nat) (r r' : SweepRequest) : Prop where
  ticket : r'.ticket = r.ticket
  session : r'.session = r.session
  remaining : r'.remaining.Sublist r.remaining
  nonempty : r.remaining ≠ [] → r'.remaining ≠ []
  total : r'.measured + r'.skipped + r'.remaining.length ≤ r.measured + r.skipped + r.remaining.length
  aborts : r'.aborts = r.aborts ∨ r'.aborts < limit
  cancelling : r'.cancelling = false → r.cancelling = false

namespace SweepRequest.Runs

theorem refl (limit : Nat) (r : SweepRequest) : r.Runs limit r :=
  ⟨rfl, rfl, List.Sublist.refl _, fun hr => hr, le_rfl, .inl rfl, fun hc => hc⟩

theorem trans (h : r.Runs limit r') (h' : r'.Runs limit r'') : r.Runs limit r'' where
  ticket := h'.ticket.trans h.ticket
  session := h'.session.trans h.session
  remaining := h'.remaining.trans h.remaining
  nonempty hr := h'.nonempty (h.nonempty hr)
  total := h'.total.trans h.total
  aborts := by
    rcases h'.aborts with heq | hlt
    · rw [heq]
      exact h.aborts
    · exact .inr hlt
  cancelling hc := h.cancelling (h'.cancelling hc)

theorem port (h : r.Runs limit r') : r'.port = r.port := congrArg (·.2.1) h.ticket

/-- A record of the request other than its list, its counts and its cancelling mark is written. -/
theorem of_eq (hticket : r'.ticket = r.ticket) (hsession : r'.session = r.session) (hremaining : r'.remaining = r.remaining)
    (hmeasured : r'.measured = r.measured) (hskipped : r'.skipped = r.skipped)
    (haborts : r'.aborts = r.aborts ∨ r'.aborts < limit) (hcancelling : r'.cancelling = false → r.cancelling = false) :
    r.Runs limit r' where
  ticket := hticket
  session := hsession
  remaining := hremaining ▸ List.Sublist.refl _
  nonempty := hremaining ▸ fun hr => hr
  total := by rw [hremaining, hmeasured, hskipped]
  aborts := haborts
  cancelling := hcancelling

theorem engage (limit : Nat) (r : SweepRequest) (round : Round) : r.Runs limit (r.engage round) :=
  of_eq rfl rfl rfl rfl rfl (.inl rfl) fun hc => hc

theorem credit (limit : Nat) (h : (creditFate r).kept = some r') : r.Runs limit r' := by
  rw [creditFate_kept] at h
  split at h
  · exact Option.some.inj h ▸ refl limit r
  · split at h
    · cases h
    · rename_i hne
      obtain rfl := Option.some.inj h
      rw [credited_eq]
      have hlen : r.rest.length ≤ r.remaining.length := List.length_filter_le ..
      exact ⟨rfl, rfl, List.filter_sublist, fun _ hnil => hne (.inr hnil), by dsimp only; omega, .inl rfl, fun hc => hc⟩

theorem abort (h : (abortFate limit r).kept = some r') : r.Runs limit r' := by
  rw [abortFate_kept] at h
  split at h
  · exact Option.some.inj h ▸ refl limit r
  · split at h
    · cases h
    · rename_i hne
      obtain rfl := Option.some.inj h
      exact of_eq rfl rfl rfl rfl rfl (.inr (by dsimp only; omega)) fun hc => hc

theorem cascade (limit : Nat) {losing : Port → Bool} (h : (cascadeFate k losing r).kept = some r') :
    r.Runs limit r' := by
  rw [cascadeFate_kept] at h
  split at h
  · rename_i hk
    split at h
    · cases h
    · rename_i hne
      obtain rfl := Option.some.inj h
      have hlen : (r.without k).remaining.length < r.remaining.length :=
        List.length_filter_lt_length_iff_exists.2 ⟨k, hk.2, by simp⟩
      exact ⟨rfl, rfl, List.filter_sublist, fun _ => hne, by dsimp only [SweepRequest.without] at hlen ⊢; omega, .inl rfl, fun hc => hc⟩
  · exact Option.some.inj h ▸ refl limit r

theorem teardown (limit : Nat) (h : (teardownFate p r).kept = some r') : r.Runs limit r' := by
  rw [teardownFate_kept] at h
  split at h
  · split at h
    · cases h
    · exact Option.some.inj h ▸ of_eq rfl rfl rfl rfl rfl (.inl rfl) (by simp)
  · exact Option.some.inj h ▸ refl limit r

theorem cancel (limit : Nat) {id : Nat} (h : (cancelFate id r).kept = some r') : r.Runs limit r' := by
  rw [cancelFate_kept] at h
  split at h
  · split at h
    · cases h
    · exact Option.some.inj h ▸ of_eq rfl rfl rfl rfl rfl (.inl rfl) (by simp)
  · exact Option.some.inj h ▸ refl limit r

end SweepRequest.Runs

/-! ## What stays of the queue -/

/-- From `s` to `t` no request is admitted: the queue of `t` holds requests of `s`, in their order, as `Runs` has them. -/
structure QueueRuns (limit : Nat) (s t : State) : Prop where
  nextId : t.nextId = s.nextId
  tickets : (t.queue.map (·.ticket)).Sublist (s.queue.map (·.ticket))
  request : ∀ r' ∈ t.queue, ∃ r ∈ s.queue, r.Runs limit r'

namespace QueueRuns

theorem of_eq (hid : t.nextId = s.nextId) (hq : t.queue = s.queue) : QueueRuns limit s t :=
  ⟨hid, hq ▸ List.Sublist.refl _, fun r hr => ⟨r, hq ▸ hr, .refl limit r⟩⟩

theorem refl (s : State) : QueueRuns limit s s := of_eq rfl rfl

theorem trans (h : QueueRuns limit s t) (h' : QueueRuns limit t u) : QueueRuns limit s u where
  nextId := h'.nextId.trans h.nextId
  tickets := h'.tickets.trans h.tickets
  request r'' hr'' := by
    obtain ⟨r', hr', hrun'⟩ := h'.request r'' hr''
    obtain ⟨r, hr, hrun⟩ := h.request r' hr'
    exact ⟨r, hr, hrun.trans hrun'⟩

/-- The queue filtered and rewritten request by request. -/
theorem of_filterMap {f : SweepRequest → Option SweepRequest} (hid : t.nextId = s.nextId)
    (hq : t.queue = s.queue.filterMap f) (hf : ∀ r r', f r = some r' → r.Runs limit r') : QueueRuns limit s t where
  nextId := hid
  tickets := by
    rw [hq]
    generalize s.queue = rs
    induction rs with
    | nil => simp
    | cons r rs ih =>
      rw [List.filterMap_cons]
      split
      · exact ih.trans (List.sublist_cons_self ..)
      · rename_i r' hr'
        simpa [(hf r r' hr').ticket] using ih
  request r' hr' := by
    rw [hq, List.mem_filterMap] at hr'
    obtain ⟨r, hr, hkept⟩ := hr'
    exact ⟨r, hr, hf r r' hkept⟩

theorem walkQueue (s : State) {fate : SweepRequest → Fate} (hf : ∀ r r', (fate r).kept = some r' → r.Runs limit r') :
    QueueRuns limit s (s.walkQueue fate) := of_filterMap (by simp) (by simp) hf

theorem cascade (s : State) (k : SlotNo) (x : SlotRecord) (losing : Port → Bool) :
    QueueRuns limit s (s.cascade k x losing) :=
  of_filterMap (by simp) (by simp; rfl) fun _ _ => SweepRequest.Runs.cascade limit

theorem teardown (s : State) (p : Port) : QueueRuns limit s (s.teardown p) :=
  of_filterMap (by simp) (by simp; rfl) fun _ _ => SweepRequest.Runs.teardown limit

theorem roundStartCheck (s : State) : QueueRuns limit s s.roundStartCheck := by
  unfold State.roundStartCheck
  split
  · refine of_filterMap (f := fun r => some (r.engage s.newRound)) (by simp) (by simp) fun r r' h => ?_
    exact Option.some.inj h ▸ .engage limit r _
  · exact refl s

theorem clearRound (s : State) (round : Round) : QueueRuns limit s (s.clearRound round) := of_eq (by simp) (by simp)

theorem idleLanes (s : State) : QueueRuns limit s s.idleLanes := of_eq (by simp) (by simp)

theorem completeRound (s : State) (round : Round) : QueueRuns limit s (s.completeRound round) :=
  trans (of_eq (t := allLanes.foldl (State.handLane round) s) (by simp) (by simp)) <|
    (walkQueue _ fun _ _ => SweepRequest.Runs.credit limit).trans <|
      (clearRound _ round).trans (roundStartCheck _)

theorem abortRound (s : State) (round : Round) : QueueRuns s.gate.settings.abortLimit s (s.abortRound round) :=
  (walkQueue s fun _ _ => SweepRequest.Runs.abort).trans <|
    (clearRound _ round).trans <| (idleLanes _).trans (roundStartCheck _)

theorem formObserved (s : State) : QueueRuns s.gate.settings.abortLimit s s.formObserved := by
  unfold State.formObserved
  dsimp only
  refine trans (t := { s with gate := { s.gate with observed := observedState s.gate.settings s.gate.line } })
    (of_eq rfl rfl) ?_
  split
  · split
    · exact abortRound { s with gate := { s.gate with observed := observedState s.gate.settings s.gate.line } } _
    · exact refl _
  · exact roundStartCheck _
  · exact refl _

theorem quietChange (s : State) (level : Level) : QueueRuns s.gate.settings.abortLimit s (s.quietChange level) :=
  trans (t := { s with gate := { s.gate with line := level } }) (of_eq rfl rfl)
    (formObserved { s with gate := { s.gate with line := level } })

theorem applyGate (s : State) (p : Port) (g : GateSettings) : QueueRuns g.abortLimit s (s.applyGate p g) :=
  trans (t := { s with gate := { s.gate with settings := g, holder := if g.enabled then some p else none } })
    (of_eq rfl rfl)
    ((formObserved { s with gate := { s.gate with settings := g, holder := if g.enabled then some p else none } }).trans
      (roundStartCheck _))

theorem lanePulseEnd (s : State) (l : LaneNo) : QueueRuns limit s (s.lanePulseEnd l) := by
  unfold State.lanePulseEnd State.completionCheck
  dsimp only
  split
  · refine trans (t := s.setLane l (s.lane l).afterPulse) (of_eq (by simp) (by simp)) ?_
    split
    · exact refl _
    · split
      · exact completeRound _ _
      · exact refl _
  · exact of_eq (by simp) (by simp)

theorem setSlot (s : State) (k : SlotNo) (x : Option SlotRecord) : QueueRuns limit s (s.setSlot k x) :=
  of_eq (by simp) (by simp)

theorem applyModify (s : State) (k : SlotNo) (x : SlotRecord) (new : Params) :
    QueueRuns limit s (s.applyModify k x new) := by
  by_cases hu : x.unshares new = true
  · exact of_filterMap (by simp) (by rw [State.applyModify_queue, if_pos hu]) fun _ _ => SweepRequest.Runs.cascade limit
  · exact of_eq (by simp) (by rw [State.applyModify_queue, if_neg hu])

end QueueRuns

/-! ## Sweep ids -/

theorem sweepIdAfter_eq (h : 1 ≤ n ∧ n ≤ 255) (i : Nat) : sweepIdAfter n i = (n - 1 + i) % 255 + 1 := by
  induction i with
  | zero =>
    rw [sweepIdAfter]
    omega
  | succ i ih =>
    rw [sweepIdAfter, ih, nextSweepId]
    split <;> omega

theorem nextSweepId_range (n : Nat) : 1 ≤ nextSweepId n ∧ nextSweepId n ≤ 255 := by
  unfold nextSweepId
  split <;> omega

/-- Every request is one port's or the other's (R25). -/
theorem State.queue_length (s : State) : s.queue.length = (s.requestsOf .a).length + (s.requestsOf .b).length := by
  unfold State.requestsOf
  induction s.queue with
  | nil => rfl
  | cons r rs ih =>
    cases hp : r.port <;> simp [hp, ih] <;> omega

theorem State.ShareInv.queue_length_le (h : s.ShareInv) : s.queue.length ≤ 6 := by
  obtain ⟨hshare, -⟩ := h
  have ha := (hshare .a).1
  have hb := (hshare .b).1
  rw [s.queue_length]
  simp only [Config.requestsPerPort] at ha hb
  omega

/-- At most six ids are taken, so one of seven is free (R29). -/
theorem State.ShareInv.exists_freeId (h : s.ShareInv) :
    ∃ i < 7, sweepIdAfter s.nextId i ∉ s.queue.map (·.id) := by
  by_contra hall
  push Not at hall
  obtain ⟨-, -, -, hid⟩ := id h
  have hnodup : ((List.range 7).map (sweepIdAfter s.nextId)).Nodup := by
    refine (List.nodup_map_iff_inj_on List.nodup_range).2 fun i hi j hj hij => ?_
    rw [List.mem_range] at hi hj
    rw [sweepIdAfter_eq hid, sweepIdAfter_eq hid] at hij
    omega
  have hsub : (List.range 7).map (sweepIdAfter s.nextId) ⊆ s.queue.map (·.id) := by
    intro x hx
    obtain ⟨i, hi, rfl⟩ := List.mem_map.1 hx
    exact hall i (List.mem_range.1 hi)
  have hlen := (hnodup.subperm hsub).length_le
  have hmax := h.queue_length_le
  simp only [List.length_map, List.length_range] at hlen
  omega

/-- The id of an admission (R29): the first free one from the counter upward. -/
theorem State.ShareInv.freeSweepId_first (h : s.ShareInv) :
    ∃ i ≤ 6, s.freeSweepId = sweepIdAfter s.nextId i ∧ s.freeSweepId ∉ s.queue.map (·.id) ∧
      ∀ j < i, sweepIdAfter s.nextId j ∈ s.queue.map (·.id) := by
  obtain ⟨i, hlt, hfree⟩ := h.exists_freeId
  have hex : ∃ i, sweepIdAfter s.nextId i ∉ s.queue.map (·.id) := ⟨i, hfree⟩
  have hfirst := Nat.find_spec hex
  have hbefore := fun j (hj : j < Nat.find hex) => not_not.1 (Nat.find_min hex hj)
  have hle : Nat.find hex ≤ i := Nat.find_min' hex hfree
  generalize Nat.find hex = first at hfirst hbefore hle
  have hfind : (List.range 255).find? (fun j => !(s.queue.map (·.id)).contains (sweepIdAfter s.nextId j)) = some first := by
    rw [List.find?_range_eq_some]
    exact ⟨by simpa using hfirst, by simp; omega, fun j hj => by simpa using hbefore j hj⟩
  have heq : s.freeSweepId = sweepIdAfter s.nextId first := by
    unfold State.freeSweepId
    rw [List.find?_map, Function.comp_def, hfind]
    rfl
  exact ⟨first, by omega, heq, heq ▸ hfirst, hbefore⟩

/-! ## Shares and ids -/

/-- R27 and R29, of the tickets in the queue. -/
def SharesOf (ts : List (Nat × Port × Origin)) : Prop :=
  (∀ p : Port, (ts.filter fun t => decide (t.2.1 = p)).length ≤ Config.requestsPerPort ∧
    ((ts.filter fun t => decide (t.2.1 = p)).filter fun t => decide (t.2.2 = .timer)).length ≤ 1) ∧
  (ts.map (·.1)).Nodup ∧ ∀ t ∈ ts, 1 ≤ t.1 ∧ t.1 ≤ 255

theorem State.shareInv_iff :
    s.ShareInv ↔ SharesOf (s.queue.map (·.ticket)) ∧ 1 ≤ s.nextId ∧ s.nextId ≤ 255 := by
  simp only [State.ShareInv, SharesOf, State.requestsOf, List.filter_map, List.length_map, List.map_map,
    List.forall_mem_map, Function.comp_def, SweepRequest.ticket, and_assoc]

theorem SharesOf.sublist {ts ts' : List (Nat × Port × Origin)} (h : SharesOf ts) (hsub : ts'.Sublist ts) :
    SharesOf ts' := by
  obtain ⟨hshare, hnodup, hrange⟩ := h
  refine ⟨fun p => ⟨?_, ?_⟩, hnodup.sublist (hsub.map _), fun t ht => hrange t (hsub.subset ht)⟩
  · exact (hsub.filter _).length_le.trans (hshare p).1
  · exact ((hsub.filter _).filter _).length_le.trans (hshare p).2

namespace State

theorem ShareInv.of_runs (h : s.ShareInv) (hq : QueueRuns limit s t) : t.ShareInv := by
  rw [shareInv_iff] at h ⊢
  exact ⟨h.1.sublist hq.tickets, hq.nextId ▸ h.2⟩

theorem ShareInv.of_eq (h : s.ShareInv) (hid : t.nextId = s.nextId) (hq : t.queue = s.queue) : t.ShareInv :=
  h.of_runs (limit := 0) (.of_eq hid hq)

theorem requestsOf_addRequest (s : State) (p q : Port) (o : Origin) (ks : List SlotNo) :
    (s.addRequest p o ks).requestsOf q =
      s.requestsOf q ++ if p = q then [newRequest s.freeSweepId p (s.session p).number o ks] else [] := by
  unfold requestsOf
  by_cases h : p = q <;> simp [newRequest, h]

/-- An admission within the port's share, and of origin TIMER only where the port has no such request (R27, R35). -/
theorem ShareInv.addRequest (h : s.ShareInv) {o : Origin} {ks : List SlotNo}
    (hroom : (s.requestsOf p).length < Config.requestsPerPort)
    (htimer : o = .timer → ∀ r ∈ s.requestsOf p, r.origin ≠ .timer) : (s.addRequest p o ks).ShareInv := by
  obtain ⟨i, -, heq, hfree, -⟩ := h.freeSweepId_first
  obtain ⟨hshare, hnodup, hrange, hid⟩ := h
  have hidrange : 1 ≤ s.freeSweepId ∧ s.freeSweepId ≤ 255 := by
    rw [heq, sweepIdAfter_eq hid]
    omega
  refine ⟨fun q => ?_, ?_, ?_, nextSweepId_range _⟩
  · obtain ⟨hlen, htimers⟩ := hshare q
    rw [requestsOf_addRequest]
    by_cases hq : p = q
    · subst hq
      refine ⟨by simpa using hroom, ?_⟩
      by_cases ho : o = .timer
      · have hnone : (s.requestsOf p).filter (fun r => decide (r.origin = .timer)) = [] := by
          simpa using htimer ho
        simp [newRequest, ho, hnone]
      · simpa [newRequest, ho] using htimers
    · simpa [hq] using And.intro hlen htimers
  · rw [addRequest_queue, List.map_append, List.nodup_append]
    refine ⟨hnodup, by simp, ?_⟩
    rintro x hx y hy rfl
    obtain rfl : x = s.freeSweepId := by simpa [newRequest] using hy
    exact hfree hx
  · intro r hr
    rw [addRequest_queue, List.mem_append, List.mem_singleton] at hr
    rcases hr with hr | rfl
    · exact hrange r hr
    · exact hidrange

theorem ShareInv.roundStartCheck (h : s.ShareInv) : s.roundStartCheck.ShareInv :=
  h.of_runs (limit := 0) (.roundStartCheck s)

/-- The cases of an expiry at the sweep queue (R35): nothing, a CADENCE_SLIP, or an admission. -/
theorem expiryAtQueue_cases (s : State) (p : Port) :
    s.expiryAtQueue p = s ∨ (∃ e, s.expiryAtQueue p = s.post p e) ∨
      (s.standing p ≠ [] ∧ (∀ r ∈ s.requestsOf p, r.origin ≠ .timer) ∧
        (s.requestsOf p).length < Config.requestsPerPort ∧
        s.expiryAtQueue p = (s.addRequest p .timer (s.standing p)).roundStartCheck) := by
  unfold State.expiryAtQueue
  split
  · exact .inl rfl
  · rename_i hne
    split
    · exact .inr (.inl ⟨_, rfl⟩)
    · rename_i hnone
      split
      · exact .inr (.inl ⟨_, rfl⟩)
      · exact .inr (.inr ⟨by simpa using hne, by simpa using hnone, by omega, rfl⟩)

/-- The cases of a tick taken by a timer (R128). -/
theorem takeTick_cases (s : State) (p : Port) :
    s.takeTick p = s ∨
      ((s.cadence p).running = true ∧ 1 < (s.cadence p).counter ∧
        s.takeTick p = s.setCadence p
          { s.cadence p with counter := (s.cadence p).counter - 1, owed := (s.cadence p).owed - 1 }) ∨
      ((s.cadence p).running = true ∧
        s.takeTick p = (s.setCadence p
          { s.cadence p with counter := (s.cadence p).latch, owed := (s.cadence p).owed - 1 }).expiryAtQueue p) := by
  unfold State.takeTick
  dsimp only
  split
  · rename_i hrun
    have hrun : (s.cadence p).running = true := by simp_all
    split
    · exact .inr (.inl ⟨hrun, ‹_›, rfl⟩)
    · exact .inr (.inr ⟨hrun, rfl⟩)
  · exact .inl rfl

theorem ShareInv.expiryAtQueue (h : s.ShareInv) : (s.expiryAtQueue p).ShareInv := by
  rcases s.expiryAtQueue_cases p with heq | ⟨e, heq⟩ | ⟨-, htimer, hroom, heq⟩ <;> rw [heq]
  · exact h
  · exact h.of_eq (by simp) (by simp)
  · exact (h.addRequest hroom fun _ => htimer).roundStartCheck

theorem ShareInv.takeTick (h : s.ShareInv) : (s.takeTick p).ShareInv := by
  rcases s.takeTick_cases p with heq | ⟨-, -, heq⟩ | ⟨-, heq⟩ <;> rw [heq]
  · exact h
  · exact h.of_eq (by simp) (by simp)
  · exact ShareInv.expiryAtQueue (h.of_eq (by simp) (by simp))

theorem applyOpen_runs (s : State) (p : Port) : QueueRuns limit s (s.applyOpen p) := by
  unfold State.applyOpen
  split
  · exact (QueueRuns.teardown s p).trans (.of_eq (by simp) (by simp))
  · exact .of_eq (by simp) (by simp)

theorem applyClose_runs (s : State) (p : Port) : QueueRuns limit s (s.applyClose p) :=
  (QueueRuns.teardown s p).trans (.of_eq (by simp) rfl)

theorem shareInv_preserved : Preserved ShareInv where
  pending _ _ h := h.of_eq rfl rfl
  host _ _ _ _ h := h.of_eq (by simp) (by simp)
  chipSelect _ _ _ _ h := h.of_eq (by simp) (by simp)
  deviceReset _ _ := by simp [ShareInv, requestsOf]
  release _ _ _ h := h.of_eq (by simp) (by simp)
  quiet s level _ h := h.of_runs (.quietChange s level)
  tick _ _ h := h.of_eq (by simp) (by simp)
  takeTick _ _ _ h := h.takeTick
  openSession s p _ h := h.of_runs (limit := 0) (s.applyOpen_runs p)
  closeSession s p _ _ h := h.of_runs (limit := 0) (s.applyClose_runs p)
  define _ _ _ _ _ _ _ _ h := h.of_eq (by simp) (by simp)
  modify s _ k r q _ _ _ _ _ _ h := h.of_runs (limit := 0) (.applyModify s k r q)
  delete s _ k r _ _ _ _ _ h := h.of_runs (limit := 0) ((QueueRuns.cascade s k r _).trans (.setSlot _ _ _))
  subscribe _ _ _ _ _ _ _ _ _ h := h.of_eq (by simp) (by simp)
  unsubscribe s _ k r _ _ _ _ _ _ h :=
    h.of_runs (limit := 0) ((QueueRuns.setSlot s k _).trans (.cascade _ k r _))
  recalibrate _ _ _ _ _ _ _ _ h := h.of_eq (by simp) (by simp)
  setProfile _ _ _ _ _ _ _ _ _ h := h.of_eq rfl rfl
  setStanding _ _ _ _ _ _ _ _ h := h.of_eq (by simp) (by simp)
  sweep _ _ _ _ _ _ _ _ _ hroom h := (h.addRequest hroom (by simp)).roundStartCheck
  cancel s _ _ _ _ _ _ _ _ h := h.of_runs (limit := 0) (.walkQueue s fun _ _ => SweepRequest.Runs.cancel 0)
  setCadence _ _ _ _ _ _ h := h.of_eq (by simp) (by simp)
  setGate s p g _ _ _ _ h := h.of_runs (.applyGate s p g)
  fetch _ _ _ _ _ _ h := h.of_eq (by simp) (by simp)
  ack _ _ _ _ _ _ _ h := h.of_eq (by simp) (by simp)
  dischargeEnd _ _ _ h := h.of_eq (by simp) (by simp)
  phaseEnd _ _ _ h := h.of_eq (by simp) (by simp)
  transferEnd _ _ _ _ h := h.of_eq (by simp) (by simp)
  pulseEnd s l _ h := h.of_runs (limit := 0) (.lanePulseEnd s l)

end State

/-! ## The remaining lists -/

theorem not_mem_remaining_of_cascade {losing : Port → Bool} {rs : List SweepRequest}
    (hr : r' ∈ rs.filterMap fun x => (cascadeFate k losing x).kept) (hl : losing r'.port = true) : k ∉ r'.remaining := by
  obtain ⟨r, -, hkept⟩ := List.mem_filterMap.1 hr
  have hport : r'.port = r.port := (SweepRequest.Runs.cascade 0 hkept).port
  rw [cascadeFate_kept] at hkept
  split at hkept
  · split at hkept
    · cases hkept
    · obtain rfl := Option.some.inj hkept
      simp [SweepRequest.without]
  · rename_i hk
    obtain rfl := Option.some.inj hkept
    exact fun hmem => hk ⟨hl, hmem⟩

theorem cancelling_of_teardown {rs : List SweepRequest} (hr : r' ∈ rs.filterMap fun x => (teardownFate p x).kept)
    (hp : r'.port = p) : r'.cancelling = true := by
  obtain ⟨r, -, hkept⟩ := List.mem_filterMap.1 hr
  have hport : r'.port = r.port := (SweepRequest.Runs.teardown 0 hkept).port
  rw [teardownFate_kept, if_pos (hport ▸ hp)] at hkept
  split at hkept
  · cases hkept
  · exact Option.some.inj hkept ▸ rfl

namespace State

theorem subscribes_isSome (h : s.subscribes p k = true) : (s.slot k).isSome = true := by
  obtain ⟨r, hr, -⟩ := subscribes_iff.1 h
  simp [hr]

/-- The slots that a request holds are still defined, and subscribed to unless it is cancelling. -/
theorem RemainingInv.of_runs (h : s.RemainingInv) (hq : QueueRuns limit s t)
    (hdef : ∀ r ∈ t.queue, ∀ k ∈ r.remaining, (s.slot k).isSome = true → (t.slot k).isSome = true)
    (hsub : ∀ r ∈ t.queue, r.cancelling = false → ∀ k ∈ r.remaining, s.subscribes r.port k = true →
      t.subscribes r.port k = true) : t.RemainingInv := by
  intro r' hr'
  obtain ⟨r, hr, hrun⟩ := hq.request r' hr'
  obtain ⟨hne, hnodup, hsome, hheld⟩ := h r hr
  refine ⟨hrun.nonempty hne, hnodup.sublist hrun.remaining, fun k hk => ?_, fun hc k hk => ?_⟩
  · exact hdef r' hr' k hk (hsome k (hrun.remaining.subset hk))
  · refine hsub r' hr' hc k hk ?_
    rw [hrun.port]
    exact hheld (hrun.cancelling hc) k (hrun.remaining.subset hk)

theorem RemainingInv.of_deeds (h : s.RemainingInv) (hq : QueueRuns limit s t) (hd : SameDeeds s t) : t.RemainingInv :=
  h.of_runs hq (fun _ _ k _ hs => (hd.isSome k).trans hs) fun r _ _ k _ hs => (hd.subscribes r.port k).trans hs

theorem RemainingInv.of_slot (h : s.RemainingInv) (hq : t.queue = s.queue) (hid : t.nextId = s.nextId)
    (hk : ∀ k, t.slot k = s.slot k) : t.RemainingInv :=
  h.of_deeds (limit := 0) (.of_eq hid hq) (.of_slot hk)

/-- Slot `k` is written, and left in the list of no request whose port it goes from. -/
theorem RemainingInv.of_write (h : s.RemainingInv) (hq : QueueRuns limit s t)
    (hne : ∀ k', k' ≠ k → t.slot k' = s.slot k')
    (hkeep : ∀ r ∈ t.queue, k ∈ r.remaining → (t.slot k).isSome = true ∧
      (s.subscribes r.port k = true → t.subscribes r.port k = true)) : t.RemainingInv := by
  refine h.of_runs hq (fun r hr k' hk' hs => ?_) fun r hr _ k' hk' hs => ?_ <;> by_cases hkk : k' = k
  · exact hkk ▸ (hkeep r hr (hkk ▸ hk')).1
  · rwa [hne k' hkk]
  · exact hkk ▸ (hkeep r hr (hkk ▸ hk')).2 (hkk ▸ hs)
  · rwa [subscribes_iff, hne k' hkk, ← subscribes_iff]

variable {x : SlotRecord}

theorem RemainingInv.define (h : s.RemainingInv) (hk : s.slot k = none) (y : SlotRecord) :
    (s.setSlot k (some y)).RemainingInv :=
  h.of_write (k := k) (limit := 0) (.setSlot s k _) (fun k' hk' => by simp [hk']) fun r hr hmem => by
    obtain ⟨-, -, hsome, -⟩ := h r hr
    simpa [hk] using hsome k hmem

theorem RemainingInv.subscribe (h : s.RemainingInv) (hx : s.slot k = some x) :
    (s.setSlot k (some { x with subs := x.subs.set p true })).RemainingInv :=
  h.of_write (k := k) (limit := 0) (.setSlot s k _) (fun k' hk' => by simp [hk']) fun r _ _ => by
    simpa [subscribes_iff, hx] using Or.inr

theorem RemainingInv.delete (h : s.RemainingInv) : ((s.cascade k x fun _ => true).setSlot k none).RemainingInv :=
  h.of_write (k := k) (limit := 0) ((QueueRuns.cascade s k x _).trans (.setSlot _ k none)) (fun k' hk' => by simp [hk'])
    fun r hr hmem => by
      rw [setSlot_queue, cascade_queue] at hr
      exact absurd hmem (not_mem_remaining_of_cascade hr rfl)

theorem RemainingInv.unsubscribe (h : s.RemainingInv) (hx : s.slot k = some x) :
    ((s.setSlot k (some { x with subs := x.subs.set p false })).cascade k x fun q => decide (q = p)).RemainingInv :=
  h.of_write (k := k) (limit := 0) ((QueueRuns.setSlot s k _).trans (.cascade _ k x _)) (fun k' hk' => by simp [hk'])
    fun r hr hmem => by
      rw [cascade_queue] at hr
      have hp : r.port ≠ p := fun hp => not_mem_remaining_of_cascade hr (by simpa using hp) hmem
      simp [subscribes_iff, hx, hp]

theorem RemainingInv.modify (h : s.RemainingInv) (hx : s.slot k = some x) (new : Params) :
    (s.applyModify k x new).RemainingInv := by
  refine h.of_write (k := k) (limit := 0) (.applyModify s k x new) (fun k' hk' => by simp [hk']) fun r hr' hmem => ?_
  simp only [applyModify_slot, if_true, Option.isSome_some, subscribes_iff, hx, Option.some.injEq, exists_eq_left',
    true_and, modifiedTo_subs]
  split
  · rename_i hu
    rw [applyModify_queue, if_pos hu] at hr'
    have hp : r.port ≠ x.owner.other := fun hp => not_mem_remaining_of_cascade hr' (by simpa using hp) hmem
    obtain hp : r.port = x.owner := by simpa using Port.eq_other_of_ne hp
    simp [hp]
  · exact id

theorem RemainingInv.teardown (h : s.RemainingInv) : (s.teardown p).RemainingInv := by
  refine h.of_runs (limit := 0) (.teardown s p) (fun r _ k _ hs => by simpa using hs) fun r hr hc k _ hs => ?_
  rw [teardown_queue] at hr
  have hp : r.port ≠ p := fun hp => by simp [cancelling_of_teardown hr hp] at hc
  obtain ⟨x, hx, hsub⟩ := subscribes_iff.1 hs
  rw [subscribes_iff, teardown_slot, hx]
  refine ⟨_, rfl, ?_⟩
  dsimp only
  split <;> simp [hp, hsub]

theorem RemainingInv.openNew (h : s.RemainingInv) : (s.openNew p).RemainingInv :=
  h.of_slot (by simp) (by simp) (by simp)

theorem RemainingInv.applyOpen (h : s.RemainingInv) : (s.applyOpen p).RemainingInv := by
  unfold State.applyOpen
  split
  · exact h.teardown.openNew
  · exact h.openNew

theorem RemainingInv.applyClose (h : s.RemainingInv) : (s.applyClose p).RemainingInv :=
  RemainingInv.of_slot (s := s.teardown p) h.teardown rfl rfl fun _ => rfl

/-- The list of an admission holds subscribed slots, none twice (R31, R32). -/
theorem RemainingInv.addRequest (h : s.RemainingInv) {o : Origin} {ks : List SlotNo} (hne : ks ≠ []) (hnodup : ks.Nodup)
    (hsub : ∀ k ∈ ks, s.subscribes p k = true) : (s.addRequest p o ks).roundStartCheck.RemainingInv := by
  refine RemainingInv.of_deeds (s := s.addRequest p o ks) (limit := 0) (fun r hr => ?_) (.roundStartCheck _)
    (.roundStartCheck _)
  rw [addRequest_queue, List.mem_append, List.mem_singleton] at hr
  rcases hr with hr | rfl
  · exact h r hr
  · exact ⟨hne, hnodup, fun k hk => subscribes_isSome (hsub k hk), fun _ => hsub⟩

theorem RemainingInv.expiryAtQueue (h : s.RemainingInv) (hr : s.RightsInv) : (s.expiryAtQueue p).RemainingInv := by
  rcases s.expiryAtQueue_cases p with heq | ⟨e, heq⟩ | ⟨hne, -, -, heq⟩ <;> rw [heq]
  · exact h
  · exact h.of_slot (by simp) (by simp) (by simp)
  · obtain ⟨hnodup, hsub, -⟩ := hr.2 p
    exact h.addRequest hne hnodup hsub

theorem RemainingInv.takeTick (h : s.RemainingInv) (hr : s.RightsInv) : (s.takeTick p).RemainingInv := by
  rcases s.takeTick_cases p with heq | ⟨-, -, heq⟩ | ⟨-, heq⟩ <;> rw [heq]
  · exact h
  · exact h.of_slot (by simp) (by simp) (by simp)
  · exact RemainingInv.expiryAtQueue (h.of_slot (by simp) (by simp) (by simp))
      (hr.of_slot (by simp) (by simp) (by simp))

theorem nodup_of_sweepList {ks : List SlotNo} (hr : s.RightsInv) (hw : slotListWellFormed ks = true ∨ ks = s.standing p) :
    ks.Nodup := by
  rcases hw with hw | rfl
  · obtain ⟨-, hnodup⟩ : ks.length ≤ Config.slotListMax ∧ ks.Nodup := by simpa [slotListWellFormed] using hw
    exact hnodup
  · exact (hr.2 p).1

/-- R28 rests on R6 and R8. -/
theorem remainingInv_preserved (K : Preserved RightsInv) : Preserved fun s => s.RightsInv ∧ s.RemainingInv where
  pending s l h := ⟨K.pending s l h.1, h.2.of_slot rfl rfl fun _ => rfl⟩
  host s p x hr h := ⟨K.host s p x hr h.1, h.2.of_slot (by simp) (by simp) (by simp)⟩
  chipSelect s p low hr h := ⟨K.chipSelect s p low hr h.1, h.2.of_slot (by simp) (by simp) (by simp)⟩
  deviceReset s h := ⟨K.deviceReset s h.1, by simp [RemainingInv]⟩
  release s quiet hr h := ⟨K.release s quiet hr h.1, h.2.of_slot (by simp) (by simp) (by simp)⟩
  quiet s level hr h := ⟨K.quiet s level hr h.1, h.2.of_deeds (.quietChange s level) (.quietChange s level)⟩
  tick s hr h := ⟨K.tick s hr h.1, h.2.of_slot (by simp) (by simp) (by simp)⟩
  takeTick s p hr h := ⟨K.takeTick s p hr h.1, h.2.takeTick h.1⟩
  openSession s p hr h := ⟨K.openSession s p hr h.1, h.2.applyOpen⟩
  closeSession s p hr ho h := ⟨K.closeSession s p hr ho h.1, h.2.applyClose⟩
  define s p k q hr ho hw hk h := ⟨K.define s p k q hr ho hw hk h.1, h.2.define hk _⟩
  modify s p k x q hr ho hw hx hown hfl h := ⟨K.modify s p k x q hr ho hw hx hown hfl h.1, h.2.modify hx q⟩
  delete s p k x hr ho hx hown hfl h := ⟨K.delete s p k x hr ho hx hown hfl h.1, h.2.delete⟩
  subscribe s p k x hr ho hx hsub hsh h := ⟨K.subscribe s p k x hr ho hx hsub hsh h.1, h.2.subscribe hx⟩
  unsubscribe s p k x hr ho hx hown hsub hfl h := ⟨K.unsubscribe s p k x hr ho hx hown hsub hfl h.1, h.2.unsubscribe hx⟩
  recalibrate s p k x hr ho hx hsub h :=
    ⟨K.recalibrate s p k x hr ho hx hsub h.1,
      h.2.of_deeds (limit := 0) (.of_eq (by simp) (by simp))
        ((SameDeeds.of_slot (by simp)).trans (.setSlot (r := x) (by simpa using hx) rfl))⟩
  setProfile s p i pf hr ho hc ht hn h := ⟨K.setProfile s p i pf hr ho hc ht hn h.1, h.2.of_slot rfl rfl fun _ => rfl⟩
  setStanding s p ks hr ho hw hd hsub h :=
    ⟨K.setStanding s p ks hr ho hw hd hsub h.1, h.2.of_slot (by simp) (by simp) (by simp)⟩
  sweep s p ks hr ho hw hne hd hsub hroom h :=
    ⟨K.sweep s p ks hr ho hw hne hd hsub hroom h.1,
      h.2.addRequest hne (nodup_of_sweepList h.1 hw) (List.all_eq_true.1 hsub)⟩
  cancel s p id r hr ho hm hid hp h :=
    ⟨K.cancel s p id r hr ho hm hid hp h.1,
      h.2.of_deeds (limit := 0) (.walkQueue s fun _ _ => SweepRequest.Runs.cancel 0) (.walkQueue s _)⟩
  setCadence s p c hr ho hc h := ⟨K.setCadence s p c hr ho hc h.1, h.2.of_slot (by simp) (by simp) (by simp)⟩
  setGate s p g hr ho hg hh h := ⟨K.setGate s p g hr ho hg hh h.1, h.2.of_deeds (.applyGate s p g) (.applyGate s p g)⟩
  fetch s p n hr ho hn h := ⟨K.fetch s p n hr ho hn h.1, h.2.of_slot (by simp) (by simp) (by simp)⟩
  ack s p seq i hr ho hi h := ⟨K.ack s p seq i hr ho hi h.1, h.2.of_slot (by simp) (by simp) (by simp)⟩
  dischargeEnd s l hr h := ⟨K.dischargeEnd s l hr h.1, h.2.of_slot (by simp) (by simp) (by simp)⟩
  phaseEnd s l hr h := ⟨K.phaseEnd s l hr h.1, h.2.of_slot (by simp) (by simp) (by simp)⟩
  transferEnd s l c hr h := ⟨K.transferEnd s l c hr h.1, h.2.of_slot (by simp) (by simp) (by simp)⟩
  pulseEnd s l hr h := ⟨K.pulseEnd s l hr h.1, h.2.of_deeds (limit := 0) (.lanePulseEnd s l) (.lanePulseEnd s l)⟩

/-! ## The counts -/

theorem CountsInv.of_runs (h : s.CountsInv) (hq : QueueRuns limit s t) (hl : limit ≤ 8) : t.CountsInv := by
  intro r' hr'
  obtain ⟨r, hr, hrun⟩ := hq.request r' hr'
  obtain ⟨htotal, haborts, hsession⟩ := h r hr
  refine ⟨hrun.total.trans htotal, ?_, hrun.session ▸ hsession⟩
  have habort := hrun.aborts
  omega

theorem CountsInv.of_eq (h : s.CountsInv) (hid : t.nextId = s.nextId) (hq : t.queue = s.queue) : t.CountsInv :=
  h.of_runs (limit := 0) (.of_eq hid hq) (by omega)

/-- An admission while the session is OPEN, of a list that names no slot twice (R25, R26). -/
theorem CountsInv.addRequest (h : s.CountsInv) (hc : s.ControlInv) {o : Origin} {ks : List SlotNo}
    (ho : (s.session p).isOpen = true) (hnodup : ks.Nodup) : (s.addRequest p o ks).roundStartCheck.CountsInv := by
  refine CountsInv.of_runs (s := s.addRequest p o ks) (limit := 0) (fun r hr => ?_) (.roundStartCheck _) (by omega)
  rw [addRequest_queue, List.mem_append, List.mem_singleton] at hr
  rcases hr with hr | rfl
  · exact h r hr
  · obtain ⟨-, hnumber, hmax⟩ := hc.1 p
    obtain ⟨hpos, heq⟩ := hnumber ho
    have hlen : ks.length ≤ 32 := by simpa using hnodup.length_le_card
    exact ⟨by simpa [newRequest, Config.slotListMax] using hlen, by simp [newRequest], hpos, heq ▸ hmax⟩

theorem CountsInv.expiryAtQueue (h : s.CountsInv) (hc : s.ControlInv) (hr : s.RightsInv)
    (ho : (s.session p).isOpen = true) : (s.expiryAtQueue p).CountsInv := by
  rcases s.expiryAtQueue_cases p with heq | ⟨e, heq⟩ | ⟨-, -, -, heq⟩ <;> rw [heq]
  · exact h
  · exact h.of_eq (by simp) (by simp)
  · exact h.addRequest hc ho (hr.2 p).1

theorem CountsInv.takeTick (h : s.CountsInv) (hc : s.ControlInv) (hr : s.RightsInv) : (s.takeTick p).CountsInv := by
  rcases s.takeTick_cases p with heq | ⟨-, -, heq⟩ | ⟨hrun, heq⟩ <;> rw [heq]
  · exact h
  · exact h.of_eq (by simp) (by simp)
  · have ho : (s.session p).isOpen = true := (hc.2.1 p).1 hrun
    exact CountsInv.expiryAtQueue (h.of_eq (by simp) (by simp))
      (hc.setCadence (Cadence.Ranged.reloaded (hc.2.1 p) ((s.cadence p).owed - 1) hrun))
      (hr.of_slot (by simp) (by simp) (by simp)) (by simpa using ho)

/-- R25 and R94 rest on the sessions' numbers, the gate's abort limit and the standing lists. -/
theorem countsInv_preserved (K : Preserved fun s => s.ControlInv ∧ s.RightsInv) :
    Preserved fun s => (s.ControlInv ∧ s.RightsInv) ∧ s.CountsInv where
  pending s l h := ⟨K.pending s l h.1, h.2.of_eq rfl rfl⟩
  host s p x hr h := ⟨K.host s p x hr h.1, h.2.of_eq (by simp) (by simp)⟩
  chipSelect s p low hr h := ⟨K.chipSelect s p low hr h.1, h.2.of_eq (by simp) (by simp)⟩
  deviceReset s h := ⟨K.deviceReset s h.1, by simp [CountsInv]⟩
  release s quiet hr h := ⟨K.release s quiet hr h.1, h.2.of_eq (by simp) (by simp)⟩
  quiet s level hr h := ⟨K.quiet s level hr h.1, h.2.of_runs (.quietChange s level) h.1.1.abortLimit_le⟩
  tick s hr h := ⟨K.tick s hr h.1, h.2.of_eq (by simp) (by simp)⟩
  takeTick s p hr h := ⟨K.takeTick s p hr h.1, h.2.takeTick h.1.1 h.1.2⟩
  openSession s p hr h := ⟨K.openSession s p hr h.1, h.2.of_runs (limit := 0) (s.applyOpen_runs p) (by omega)⟩
  closeSession s p hr ho h := ⟨K.closeSession s p hr ho h.1, h.2.of_runs (limit := 0) (s.applyClose_runs p) (by omega)⟩
  define s p k q hr ho hw hk h := ⟨K.define s p k q hr ho hw hk h.1, h.2.of_eq (by simp) (by simp)⟩
  modify s p k x q hr ho hw hx hown hfl h :=
    ⟨K.modify s p k x q hr ho hw hx hown hfl h.1, h.2.of_runs (limit := 0) (.applyModify s k x q) (by omega)⟩
  delete s p k x hr ho hx hown hfl h :=
    ⟨K.delete s p k x hr ho hx hown hfl h.1,
      h.2.of_runs (limit := 0) ((QueueRuns.cascade s k x _).trans (.setSlot _ _ _)) (by omega)⟩
  subscribe s p k x hr ho hx hsub hsh h := ⟨K.subscribe s p k x hr ho hx hsub hsh h.1, h.2.of_eq (by simp) (by simp)⟩
  unsubscribe s p k x hr ho hx hown hsub hfl h :=
    ⟨K.unsubscribe s p k x hr ho hx hown hsub hfl h.1,
      h.2.of_runs (limit := 0) ((QueueRuns.setSlot s k _).trans (.cascade _ k x _)) (by omega)⟩
  recalibrate s p k x hr ho hx hsub h := ⟨K.recalibrate s p k x hr ho hx hsub h.1, h.2.of_eq (by simp) (by simp)⟩
  setProfile s p i pf hr ho hc ht hn h := ⟨K.setProfile s p i pf hr ho hc ht hn h.1, h.2.of_eq rfl rfl⟩
  setStanding s p ks hr ho hw hd hsub h := ⟨K.setStanding s p ks hr ho hw hd hsub h.1, h.2.of_eq (by simp) (by simp)⟩
  sweep s p ks hr ho hw hne hd hsub hroom h :=
    ⟨K.sweep s p ks hr ho hw hne hd hsub hroom h.1, h.2.addRequest h.1.1 ho (nodup_of_sweepList h.1.2 hw)⟩
  cancel s p id r hr ho hm hid hp h :=
    ⟨K.cancel s p id r hr ho hm hid hp h.1,
      h.2.of_runs (limit := 0) (.walkQueue s fun _ _ => SweepRequest.Runs.cancel 0) (by omega)⟩
  setCadence s p c hr ho hc h := ⟨K.setCadence s p c hr ho hc h.1, h.2.of_eq (by simp) (by simp)⟩
  setGate s p g hr ho hg hh h :=
    ⟨K.setGate s p g hr ho hg hh h.1,
      h.2.of_runs (.applyGate s p g) (by simpa [GateSettings.wellFormed] using hg : _ ∧ _).2⟩
  fetch s p n hr ho hn h := ⟨K.fetch s p n hr ho hn h.1, h.2.of_eq (by simp) (by simp)⟩
  ack s p seq i hr ho hi h := ⟨K.ack s p seq i hr ho hi h.1, h.2.of_eq (by simp) (by simp)⟩
  dischargeEnd s l hr h := ⟨K.dischargeEnd s l hr h.1, h.2.of_eq (by simp) (by simp)⟩
  phaseEnd s l hr h := ⟨K.phaseEnd s l hr h.1, h.2.of_eq (by simp) (by simp)⟩
  transferEnd s l c hr h := ⟨K.transferEnd s l c hr h.1, h.2.of_eq (by simp) (by simp)⟩
  pulseEnd s l hr h := ⟨K.pulseEnd s l hr h.1, h.2.of_runs (limit := 0) (.lanePulseEnd s l) (by omega)⟩

end State

end Sys2Proof.Machine

namespace Sys2Proof.Proofs

open Sys2Proof.Machine

/-- Settles O56: the shares and ids are kept on their own; the lists rest on the subscriptions and standing lists, the counts
on the sessions and the gate besides. -/
theorem stepKeepsSweepQueue : Obligations.StepKeepsSweepQueue := by
  intro s t ⟨hsess, hcad, hgate, hsub, hstand, hshare, hrem, hcount⟩ hstep
  have hrights : s.RightsInv := ⟨hsub, hstand⟩
  exact ⟨State.shareInv_preserved.step hshare hstep, ((State.remainingInv_preserved State.rightsInv_preserved).step ⟨hrights, hrem⟩ hstep).2,
    ((State.countsInv_preserved (State.controlInv_preserved.and State.rightsInv_preserved)).step
      ⟨⟨⟨hsess, hcad, hgate⟩, hrights⟩, hcount⟩ hstep).2⟩

end Sys2Proof.Proofs
end

section
/-! PROOFS. Rounds (R48–R62): what a round start forms, what stands when a round has ended, and what every step keeps of the
round record, the marks and the engaged sets. A round's end leaves the hub at rest (`State.AtRest`), and the round-start
check that follows forms the next round from there. -/

namespace Sys2Proof.Machine

variable {s t u : State} {p : Port} {k : SlotNo} {l : LaneNo} {r r' : SweepRequest} {round : Round}

/-! ## The lane table -/

theorem Round.holds_iff : round.holds k = true ↔ ∃ l : LaneNo, round.lanes[l] = some k := by
  simp only [Round.holds, List.contains_iff_mem, Vector.mem_toList_iff, Vector.mem_iff_getElem]
  exact ⟨fun ⟨i, hi, h⟩ => ⟨⟨i, hi⟩, h⟩, fun ⟨l, h⟩ => ⟨l.val, l.isLt, h⟩⟩

theorem Round.holds_eq_false_iff : round.holds k = false ↔ ∀ l : LaneNo, round.lanes[l] ≠ some k := by
  rw [← Bool.not_eq_true, Round.holds_iff, not_exists]

/-- The leader's oldest request stands first in the order of examination, and no other moves (R51). -/
theorem State.examination_eq {before after : List SweepRequest} (hq : s.queue = before ++ r :: after)
    (hr : r.port = p) (hbefore : ∀ x ∈ before, x.port ≠ p) : s.examination p = r :: before ++ after := by
  have hfind : s.queue.find? (fun x => decide (x.port = p)) = some r :=
    List.find?_eq_some_iff_append.2 ⟨by simpa using hr, before, after, hq, by simpa using hbefore⟩
  have herase : (s.queue.eraseP fun x => decide (x.port = p)) = before ++ after := by
    rw [hq, List.eraseP_append_right _ (by simpa using hbefore), List.eraseP_cons_of_pos (by simpa using hr)]
  rw [State.examination, hfind, herase]
  rfl

/-- A waiting request makes a leader's oldest one (R50, R51). -/
theorem State.exists_oldest (hq : s.queue ≠ []) : ∃ before after r, s.queue = before ++ r :: after ∧
    r.port = s.nextLeader ∧ ∀ x ∈ before, x.port ≠ s.nextLeader := by
  obtain ⟨x, hx, hport⟩ := State.hasRequest_iff.1 (s.hasRequest_nextLeader hq)
  obtain ⟨r, hr⟩ := Option.isSome_iff_exists.1
    (List.find?_isSome.2 ⟨x, hx, by simpa using hport⟩ : (s.queue.find? fun x => decide (x.port = s.nextLeader)).isSome)
  obtain ⟨hport, before, after, hq, hbefore⟩ := List.find?_eq_some_iff_append.1 hr
  exact ⟨before, after, r, hq, by simpa using hport, by simpa using hbefore⟩

theorem State.mem_examination (hq : s.queue ≠ []) : r ∈ s.examination s.nextLeader ↔ r ∈ s.queue := by
  obtain ⟨before, after, x, hqueue, hport, hbefore⟩ := State.exists_oldest hq
  rw [State.examination_eq hqueue hport hbefore, hqueue]
  simp [or_left_comm]

theorem State.newRound_lanes (s : State) (l : LaneNo) : s.newRound.lanes[l] = s.laneChoice s.nextLeader l := by
  simp [State.newRound, State.laneTable]

/-- What a lane is given lies on the lane, and stands in the list of a request (R51). -/
theorem State.laneChoice_some (hq : s.queue ≠ []) (h : s.laneChoice s.nextLeader l = some k) :
    s.laneOf k = some l ∧ ∃ r ∈ s.queue, k ∈ r.remaining := by
  have hlane := List.find?_some h
  obtain ⟨r, hr, hk⟩ := List.mem_flatMap.1 (List.mem_of_find?_eq_some h)
  exact ⟨by simpa using hlane, r, (State.mem_examination hq).1 hr, hk⟩

theorem State.laneChoice_isSome (hr : r ∈ s.queue) (hk : k ∈ r.remaining) (hl : s.laneOf k = some l) :
    (s.laneChoice s.nextLeader l).isSome = true := by
  refine List.find?_isSome.2 ⟨k, List.mem_flatMap.2 ⟨r, ?_, hk⟩, by simpa using hl⟩
  exact (State.mem_examination (List.ne_nil_of_mem hr)).2 hr

theorem State.laneOf_eq_some_iff : s.laneOf k = some l ↔ ∃ x, s.slot k = some x ∧ x.params.lane = l := by
  simp [State.laneOf]

theorem State.startedLane_of_none (h : round.lanes[l] = none) : s.startedLane round l = s.lane l := by
  unfold State.startedLane
  simp only [h]

theorem State.startedLane_of_some {x : SlotRecord} (h : round.lanes[l] = some k) (hx : s.slot k = some x) :
    s.startedLane round l = startConversion k x.params s.profiles[x.params.profile] := by
  unfold State.startedLane
  simp only [h, hx]

/-! ## Rest -/

/-- What a request's marks are, by R39, R44 and R48, in the running round. -/
def State.EngagedRightly (s : State) (r : SweepRequest) : Prop :=
  (r.cancelling = true → r.isEngaged = true) ∧ (r.stale = true → r.cancelling = true) ∧
    ∀ k ∈ r.engaged, k ∈ r.remaining ∧ ∃ round ∈ s.round, round.holds k = true

/-- No round runs, no request is engaged or marked, and no slot is in flight. -/
structure State.AtRest (s : State) : Prop where
  round : s.round = none
  request : ∀ r ∈ s.queue, r.engaged = [] ∧ r.cancelling = false ∧ r.stale = false
  slot : ∀ k x, s.slot k = some x → x.inFlight = false

/-- R48 and R53. -/
structure State.RoundsInv (s : State) : Prop where
  engaged : s.EngagedInv
  inFlight : s.InFlightInv
  live : s.RoundLiveInv

namespace State

theorem AtRest.roundsInv (h : s.AtRest) : s.RoundsInv where
  engaged r hr := by
    obtain ⟨hengaged, hcancelling, hstale⟩ := h.request r hr
    simp [hengaged, hcancelling, hstale]
  inFlight := ⟨by simp [h.round], fun k x hx => by simp [h.round, h.slot k x hx]⟩
  live := by simp [RoundLiveInv, h.round]

theorem RoundsInv.atRest (h : s.RoundsInv) (hround : s.round = none) : s.AtRest where
  round := hround
  request r hr := by
    have hengaged : r.engaged = [] := by
      simpa [SweepRequest.isEngaged] using h.engaged.isEngaged_eq_false hround hr
    have hcancelling := h.engaged.cancelling_eq_false hround hr
    exact ⟨hengaged, hcancelling, Bool.eq_false_iff.2 fun hs => by simpa [hcancelling] using (h.engaged r hr).2.1 hs⟩
  slot k x hx := by
    have hmark := h.inFlight.2 k x hx
    exact Bool.eq_false_iff.2 fun hf => by simpa [hround] using hmark.1 hf

/-- A round formed from rest (R50–R54). -/
theorem AtRest.roundStart (h : s.AtRest) (hrem : s.RemainingInv) (hq : s.queue ≠ []) : s.roundStart.RoundsInv where
  engaged r' hr' := by
    obtain ⟨r, hr, rfl⟩ := List.mem_map.1 hr'
    obtain ⟨-, hcancelling, hstale⟩ := h.request r hr
    refine ⟨fun hc => ?_, fun hs => ?_, fun k hk => ?_⟩
    · exact absurd (hcancelling.symm.trans hc) (by decide)
    · exact absurd (hstale.symm.trans hs) (by decide)
    · obtain ⟨hmem, hholds⟩ := List.mem_filter.1 hk
      exact ⟨hmem, s.newRound, rfl, hholds⟩
  inFlight := by
    refine ⟨fun round hround l k hk => ?_, fun k x hx => ?_⟩
    · obtain rfl : s.newRound = round := Option.some.inj hround
      rw [(SameDeeds.roundStart s).laneOf]
      exact (laneChoice_some hq (s.newRound_lanes l ▸ hk)).1
    · simp only [roundStart_round, Option.mem_def, Option.some.injEq, exists_eq_left']
      rw [roundStart_slot] at hx
      split at hx
      · rename_i hholds
        obtain ⟨y, -, rfl⟩ := Option.map_eq_some_iff.1 hx
        simp [hholds]
      · rename_i hholds
        simp [hholds, h.slot k x hx]
  live := by
    intro round hround
    obtain rfl : s.newRound = round := Option.some.inj hround
    obtain ⟨r₀, hr₀⟩ := List.exists_mem_of_ne_nil _ hq
    obtain ⟨hne, -, hsome, -⟩ := hrem r₀ hr₀
    obtain ⟨k₀, hk₀⟩ := List.exists_mem_of_ne_nil _ hne
    obtain ⟨x₀, hx₀⟩ := Option.isSome_iff_exists.1 (hsome k₀ hk₀)
    have hl := laneChoice_isSome hr₀ hk₀ (laneOf_eq_some_iff.2 ⟨x₀, hx₀, rfl⟩)
    obtain ⟨k, hk⟩ := Option.isSome_iff_exists.1 hl
    obtain ⟨hlane, r, hr, hmem⟩ := laneChoice_some hq hk
    obtain ⟨x, hx, -⟩ := laneOf_eq_some_iff.1 hlane
    rw [← newRound_lanes] at hk
    refine ⟨⟨x₀.params.lane, by simp [hk], ?_⟩, r.engage s.newRound, List.mem_map_of_mem hr, ?_⟩
    · rw [roundStart_lane, startedLane_of_some hk hx]
      simp [startConversion]
    · rw [SweepRequest.isEngaged_iff]
      exact List.ne_nil_of_mem (List.mem_filter.2 ⟨hmem, Round.holds_iff.2 ⟨_, hk⟩⟩)

theorem roundMayStart_iff :
    s.roundMayStart = true ↔ s.round = none ∧ s.queue ≠ [] ∧ s.gate.observed = .opened := by
  simp [roundMayStart, and_assoc]

theorem RoundsInv.roundStartCheck (h : s.RoundsInv) (hrem : s.RemainingInv) : s.roundStartCheck.RoundsInv := by
  unfold State.roundStartCheck
  split
  · obtain ⟨hround, hq, -⟩ := roundMayStart_iff.1 ‹_›
    exact (h.atRest hround).roundStart hrem hq
  · exact h

theorem noIdleArbiterInv_roundStartCheck (s : State) : s.roundStartCheck.NoIdleArbiterInv := by
  unfold State.roundStartCheck
  split
  · exact fun h => by simp at h
  · rename_i hmay
    intro hround
    by_contra hboth
    push Not at hboth
    obtain ⟨hq, hshut⟩ := hboth
    refine hmay (roundMayStart_iff.2 ⟨hround, hq, ?_⟩)
    cases ho : s.gate.observed with
    | opened => rfl
    | shut => exact absurd ho hshut

end State

/-! ## The end of a round -/

/-- The hub when a round has been completed, before the round-start check (R57–R59). -/
def State.completed (s : State) (round : Round) : State :=
  ((allLanes.foldl (State.handLane round) s).walkQueue creditFate).clearRound round

/-- The hub when a round has been aborted, before the round-start check (R60–R62). -/
def State.aborted (s : State) (round : Round) : State :=
  ((s.walkQueue (abortFate s.gate.settings.abortLimit)).clearRound round).idleLanes

theorem mem_allLanes (l : LaneNo) : l ∈ allLanes := by
  revert l
  decide

namespace State

theorem completeRound_eq (s : State) (round : Round) : s.completeRound round = (s.completed round).roundStartCheck := rfl

theorem abortRound_eq (s : State) (round : Round) : s.abortRound round = (s.aborted round).roundStartCheck := rfl

theorem handLane_slot_of_ne (s : State) (h : round.lanes[l] ≠ some k) : (handLane round s l).slot k = s.slot k := by
  unfold handLane
  split
  · rename_i k' rd hk' _
    rw [handReading_slot, if_neg]
    rintro rfl
    exact h hk'
  · rfl

/-- The lanes' readings reach the slots of their lane table alone (R57). -/
theorem handLanes_slot_of_ne (ls : List LaneNo) (s : State) (h : ∀ l ∈ ls, round.lanes[l] ≠ some k) :
    (ls.foldl (handLane round) s).slot k = s.slot k := by
  induction ls generalizing s with
  | nil => rfl
  | cons l ls ih =>
    rw [List.foldl_cons, ih _ fun l' hl' => h l' (List.mem_cons_of_mem _ hl'), handLane_slot_of_ne s (h l List.mem_cons_self)]

theorem completed_slot_of_not_held (s : State) (h : round.holds k = false) : (s.completed round).slot k = s.slot k := by
  rw [completed, clearRound_slot, if_neg (by simp [h]), walkQueue_slot,
    handLanes_slot_of_ne _ s fun l _ => Round.holds_eq_false_iff.1 h l]

theorem completed_queue (s : State) (round : Round) :
    (s.completed round).queue = s.queue.filterMap fun r => (creditFate r).kept := by
  simp [completed]

theorem aborted_queue (s : State) (round : Round) :
    (s.aborted round).queue = s.queue.filterMap fun r => (abortFate s.gate.settings.abortLimit r).kept := by
  simp [aborted]

theorem aborted_slot (s : State) (round : Round) (k : SlotNo) :
    (s.aborted round).slot k =
      if round.holds k = true then (s.slot k).map fun x => { x with inFlight := false } else s.slot k := by
  simp [aborted]

/-- A request that a round's end leaves in the queue is neither engaged nor marked (R58, R61). -/
theorem EngagedInv.unmarked (h : s.EngagedInv) (hr : r ∈ s.queue)
    (hkept : (r.engaged = [] ∧ r' = r) ∨
      (r.cancelling = false ∧ r'.engaged = [] ∧ r'.cancelling = r.cancelling ∧ r'.stale = r.stale)) :
    r'.engaged = [] ∧ r'.cancelling = false ∧ r'.stale = false := by
  obtain ⟨hcancelling, hstale, -⟩ := h r hr
  have hstale : r.cancelling = false → r.stale = false := fun hc => Bool.eq_false_iff.2 fun hs => by
    simp [hstale hs] at hc
  rcases hkept with ⟨hnone, rfl⟩ | ⟨hc, hnone, hc', hs'⟩
  · have hc : r'.cancelling = false := Bool.eq_false_iff.2 fun hc => by
      simpa [SweepRequest.isEngaged, hnone] using hcancelling hc
    exact ⟨hnone, hc, hstale hc⟩
  · exact ⟨hnone, hc'.trans hc, hs'.trans (hstale hc)⟩

theorem InFlightInv.inFlight_eq_false (h : s.InFlightInv) (hround : s.round = some round) {x : SlotRecord}
    (hk : round.holds k = false) (hx : s.slot k = some x) : x.inFlight = false :=
  Bool.eq_false_iff.2 fun hf => by simpa [hround, hk] using (h.2 k x hx).1 hf

theorem AtRest.of_completed (he : s.EngagedInv) (hf : s.InFlightInv) (hround : s.round = some round) :
    (s.completed round).AtRest where
  round := rfl
  request r' hr' := by
    rw [completed_queue] at hr'
    obtain ⟨r, hr, hkept⟩ := List.mem_filterMap.1 hr'
    refine he.unmarked hr ?_
    rw [creditFate_kept] at hkept
    split at hkept
    · exact .inl ⟨‹_›, (Option.some.inj hkept).symm⟩
    · split at hkept
      · cases hkept
      · rename_i hstays
        obtain rfl := Option.some.inj hkept
        exact .inr ⟨Bool.eq_false_iff.2 fun hc => hstays (.inl hc), rfl, rfl, rfl⟩
  slot k x hx := by
    cases hk : round.holds k
    · rw [completed_slot_of_not_held s hk] at hx
      exact hf.inFlight_eq_false hround hk hx
    · rw [completed, clearRound_slot, if_pos hk] at hx
      obtain ⟨y, -, rfl⟩ := Option.map_eq_some_iff.1 hx
      rfl

theorem AtRest.of_aborted (he : s.EngagedInv) (hf : s.InFlightInv) (hround : s.round = some round) :
    (s.aborted round).AtRest where
  round := rfl
  request r' hr' := by
    rw [aborted_queue] at hr'
    obtain ⟨r, hr, hkept⟩ := List.mem_filterMap.1 hr'
    refine he.unmarked hr ?_
    rw [abortFate_kept] at hkept
    split at hkept
    · exact .inl ⟨‹_›, (Option.some.inj hkept).symm⟩
    · split at hkept
      · cases hkept
      · rename_i hstays
        obtain rfl := Option.some.inj hkept
        exact .inr ⟨Bool.eq_false_iff.2 fun hc => hstays (.inl hc), rfl, rfl, rfl⟩
  slot k x hx := by
    rw [aborted_slot] at hx
    cases hk : round.holds k
    · exact hf.inFlight_eq_false hround hk (by simpa [hk] using hx)
    · rw [if_pos hk] at hx
      obtain ⟨y, -, rfl⟩ := Option.map_eq_some_iff.1 hx
      rfl

/-! ## Every operation -/

/-- R48, R49 and R53 together. -/
def ArbiterInv (s : State) : Prop := s.RoundsInv ∧ s.NoIdleArbiterInv

theorem RoundsInv.arbiterInv_roundStartCheck (h : s.RoundsInv) (hrem : s.RemainingInv) : s.roundStartCheck.ArbiterInv :=
  ⟨h.roundStartCheck hrem, s.noIdleArbiterInv_roundStartCheck⟩

theorem arbiterInv_completeRound (he : s.EngagedInv) (hf : s.InFlightInv) (hrem : s.RemainingInv)
    (hround : s.round = some round) : (s.completeRound round).ArbiterInv := by
  rw [completeRound_eq]
  refine (AtRest.of_completed he hf hround).roundsInv.arbiterInv_roundStartCheck ?_
  exact hrem.of_deeds (limit := 0)
    ((QueueRuns.of_eq (t := allLanes.foldl (handLane round) s) (by simp) (by simp)).trans
      ((QueueRuns.walkQueue _ fun _ _ => SweepRequest.Runs.credit 0).trans (.clearRound _ round)))
    ((SameDeeds.handLanes round _ s).trans ((SameDeeds.walkQueue _ _).trans (.clearRound _ round)))

theorem arbiterInv_abortRound (he : s.EngagedInv) (hf : s.InFlightInv) (hrem : s.RemainingInv)
    (hround : s.round = some round) : (s.abortRound round).ArbiterInv := by
  rw [abortRound_eq]
  refine (AtRest.of_aborted he hf hround).roundsInv.arbiterInv_roundStartCheck ?_
  exact hrem.of_deeds
    ((QueueRuns.walkQueue s fun _ _ => SweepRequest.Runs.abort).trans
      ((QueueRuns.clearRound _ round).trans (.idleLanes _)))
    ((SameDeeds.walkQueue s _).trans ((SameDeeds.clearRound _ round).trans (.idleLanes _)))

theorem InFlightInv.of_marks (h : s.InFlightInv) (hround : t.round = s.round)
    (hmark : ∀ k, (t.slot k).map (fun x => (x.params.lane, x.inFlight)) =
      (s.slot k).map fun x => (x.params.lane, x.inFlight)) : t.InFlightInv := by
  refine ⟨fun round hr l k hk => ?_, fun k x hx => ?_⟩
  · have hl := congrArg (Option.map Prod.fst) (hmark k)
    rw [Option.map_map, Option.map_map] at hl
    exact hl.trans (h.1 round (hround ▸ hr) l k hk)
  · have hk := hmark k
    rw [hx, Option.map_some, eq_comm, Option.map_eq_some_iff] at hk
    obtain ⟨y, hy, heq⟩ := hk
    simp only [Prod.mk.injEq] at heq
    rw [hround, ← heq.2]
    exact h.2 k y hy

theorem InFlightInv.of_slot (h : s.InFlightInv) (hround : t.round = s.round) (hk : ∀ k, t.slot k = s.slot k) :
    t.InFlightInv := h.of_marks hround fun k => by rw [hk k]

/-- A slot that no lane converts is written, and left unmarked. -/
theorem InFlightInv.of_write (h : s.InFlightInv) (hround : t.round = s.round) (hne : ∀ k', k' ≠ k → t.slot k' = s.slot k')
    (hfree : ∀ round, s.round = some round → round.holds k = false) (hk : ∀ x, t.slot k = some x → x.inFlight = false) :
    t.InFlightInv := by
  refine ⟨fun round hr l k' hk' => ?_, fun k' x hx => ?_⟩
  · rw [hround] at hr
    have hkk : k' ≠ k := by
      rintro rfl
      exact Round.holds_eq_false_iff.1 (hfree round hr) l hk'
    rw [laneOf, hne k' hkk]
    exact h.1 round hr l k' hk'
  · rw [hround]
    by_cases hkk : k' = k
    · subst hkk
      rw [hk x hx]
      refine ⟨fun hf => by simp at hf, fun ⟨round, hr, hholds⟩ => ?_⟩
      rw [hfree round hr] at hholds
      exact hholds
    · exact h.2 k' x (hne k' hkk ▸ hx)

theorem InFlightInv.free_of_inFlight (h : s.InFlightInv) {x : SlotRecord} (hx : s.slot k = some x)
    (hf : x.inFlight = false) (hround : s.round = some round) : round.holds k = false :=
  Bool.eq_false_iff.2 fun hh => by simpa [hf] using (h.2 k x hx).2 ⟨round, hround, hh⟩

theorem InFlightInv.free_of_undefined (h : s.InFlightInv) (hx : s.slot k = none) (hround : s.round = some round) :
    round.holds k = false := by
  refine Round.holds_eq_false_iff.2 fun l hl => ?_
  have := h.1 round hround l k hl
  simp [laneOf, hx] at this

/-- The queue is walked while the round stays: the requests keep what R39, R44 and R48 say of them, and an engaged one
stays engaged. -/
theorem ArbiterInv.of_walk (h : s.ArbiterInv) {f : SweepRequest → Option SweepRequest}
    (hq : t.queue = s.queue.filterMap f) (hround : t.round = s.round) (hgate : t.gate.observed = s.gate.observed)
    (hlane : ∀ l, (t.lane l).state = .ended → (s.lane l).state = .ended) (hmark : t.InFlightInv)
    (hf : ∀ r r', f r = some r' → s.EngagedRightly r → s.EngagedRightly r')
    (hlive : ∀ r, s.EngagedRightly r → r.isEngaged = true → ∃ r', f r = some r' ∧ r'.isEngaged = true) :
    t.ArbiterInv := by
  obtain ⟨⟨he, -, hl⟩, hidle⟩ := h
  refine ⟨⟨fun r' hr' => ?_, hmark, fun round hr => ?_⟩, fun hr => ?_⟩
  · rw [hq] at hr'
    obtain ⟨r, hr, hkept⟩ := List.mem_filterMap.1 hr'
    rw [hround]
    exact hf r r' hkept (he r hr)
  · obtain ⟨⟨l, hsome, hrun⟩, r, hr, hengaged⟩ := hl round (hround ▸ hr)
    obtain ⟨r', hkept, hengaged'⟩ := hlive r (he r hr) hengaged
    exact ⟨⟨l, hsome, fun hend => hrun (hlane l hend)⟩, r', hq ▸ List.mem_filterMap.2 ⟨r, hr, hkept⟩, hengaged'⟩
  · rw [hq, hgate]
    rcases hidle (hround ▸ hr) with hnil | hshut
    · exact .inl (by simp [hnil])
    · exact .inr hshut

/-- Neither queue nor round is touched. -/
theorem ArbiterInv.of_marks (h : s.ArbiterInv) (hq : t.queue = s.queue) (hround : t.round = s.round)
    (hgate : t.gate.observed = s.gate.observed) (hlane : ∀ l, (t.lane l).state = .ended → (s.lane l).state = .ended)
    (hmark : t.InFlightInv) : t.ArbiterInv :=
  h.of_walk (f := some) (by simpa using hq) hround hgate hlane hmark
    (fun _ _ heq hr => Option.some.inj heq ▸ hr) fun r _ hr => ⟨r, rfl, hr⟩

theorem ArbiterInv.of_eq (h : s.ArbiterInv) (hq : t.queue = s.queue) (hround : t.round = s.round)
    (hgate : t.gate = s.gate) (hlane : ∀ l, t.lane l = s.lane l) (hk : ∀ k, t.slot k = s.slot k) : t.ArbiterInv :=
  h.of_marks hq hround (by rw [hgate]) (fun l => by rw [hlane]; exact id) (h.1.inFlight.of_slot hround hk)

/-! ### Walks -/

theorem EngagedRightly.cancel {id : Nat} (h : s.EngagedRightly r) (hkept : (cancelFate id r).kept = some r') :
    s.EngagedRightly r' := by
  rw [cancelFate_kept] at hkept
  split at hkept
  · split at hkept
    · cases hkept
    · obtain rfl := Option.some.inj hkept
      exact ⟨fun _ => SweepRequest.isEngaged_iff.2 ‹_›, fun _ => rfl, h.2.2⟩
  · exact Option.some.inj hkept ▸ h

theorem EngagedRightly.teardown (h : s.EngagedRightly r) (hkept : (teardownFate p r).kept = some r') :
    s.EngagedRightly r' := by
  rw [teardownFate_kept] at hkept
  split at hkept
  · split at hkept
    · cases hkept
    · obtain rfl := Option.some.inj hkept
      exact ⟨fun _ => SweepRequest.isEngaged_iff.2 ‹_›, fun _ => rfl, h.2.2⟩
  · exact Option.some.inj hkept ▸ h

theorem isEngaged_cancel (id : Nat) (h : r.isEngaged = true) :
    ∃ r', (cancelFate id r).kept = some r' ∧ r'.isEngaged = true := by
  rw [cancelFate_kept, if_neg (SweepRequest.isEngaged_iff.1 h)]
  split
  · exact ⟨_, rfl, h⟩
  · exact ⟨_, rfl, h⟩

theorem isEngaged_teardown (p : Port) (h : r.isEngaged = true) :
    ∃ r', (teardownFate p r).kept = some r' ∧ r'.isEngaged = true := by
  rw [teardownFate_kept, if_neg (SweepRequest.isEngaged_iff.1 h)]
  split
  · exact ⟨_, rfl, h⟩
  · exact ⟨_, rfl, h⟩

/-- A slot that no lane converts is engaged by no request. -/
theorem EngagedRightly.not_mem_engaged (h : s.EngagedRightly r) (hfree : ∀ round, s.round = some round → round.holds k = false) :
    k ∉ r.engaged := by
  intro hk
  obtain ⟨-, round, hround, hholds⟩ := h.2.2 k hk
  simp [hfree round hround] at hholds

theorem EngagedRightly.without (h : s.EngagedRightly r) (hfree : ∀ round, s.round = some round → round.holds k = false) :
    s.EngagedRightly (r.without k) := by
  refine ⟨h.1, h.2.1, fun k' hk' => ⟨List.mem_filter.2 ⟨(h.2.2 k' hk').1, ?_⟩, (h.2.2 k' hk').2⟩⟩
  have hne : k' ≠ k := by
    rintro rfl
    exact h.not_mem_engaged hfree hk'
  simpa using hne

theorem EngagedRightly.cascade {losing : Port → Bool} (h : s.EngagedRightly r)
    (hfree : ∀ round, s.round = some round → round.holds k = false)
    (hkept : (cascadeFate k losing r).kept = some r') : s.EngagedRightly r' := by
  rw [cascadeFate_kept] at hkept
  split at hkept
  · split at hkept
    · cases hkept
    · exact Option.some.inj hkept ▸ h.without hfree
  · exact Option.some.inj hkept ▸ h

theorem EngagedRightly.isEngaged_cascade (h : s.EngagedRightly r) (losing : Port → Bool)
    (hfree : ∀ round, s.round = some round → round.holds k = false) (hr : r.isEngaged = true) :
    ∃ r', (cascadeFate k losing r).kept = some r' ∧ r'.isEngaged = true := by
  rw [cascadeFate_kept]
  split
  · obtain ⟨k', hk'⟩ := List.exists_mem_of_ne_nil _ (SweepRequest.isEngaged_iff.1 hr)
    rw [if_neg (List.ne_nil_of_mem ((h.without hfree).2.2 k' hk').1)]
    exact ⟨_, rfl, hr⟩
  · exact ⟨_, rfl, hr⟩

/-- Slot `k`, which no lane converts, is written, and leaves the lists of losing ports. -/
theorem ArbiterInv.cascade (h : s.ArbiterInv) (losing : Port → Bool)
    (hfree : ∀ round, s.round = some round → round.holds k = false)
    (hq : t.queue = s.queue.filterMap fun r => (cascadeFate k losing r).kept) (hround : t.round = s.round)
    (hgate : t.gate = s.gate) (hlane : ∀ l, t.lane l = s.lane l) (hne : ∀ k', k' ≠ k → t.slot k' = s.slot k')
    (hk : ∀ x, t.slot k = some x → x.inFlight = false) : t.ArbiterInv :=
  h.of_walk hq hround (by rw [hgate]) (fun l => by rw [hlane]; exact id) (h.1.inFlight.of_write hround hne hfree hk)
    (fun _ _ hkept hr => hr.cascade hfree hkept) fun _ hr => hr.isEngaged_cascade losing hfree

/-- A slot that no lane converts is written. -/
theorem ArbiterInv.of_write (h : s.ArbiterInv) (hfree : ∀ round, s.round = some round → round.holds k = false)
    (hq : t.queue = s.queue) (hround : t.round = s.round) (hgate : t.gate = s.gate) (hlane : ∀ l, t.lane l = s.lane l)
    (hne : ∀ k', k' ≠ k → t.slot k' = s.slot k') (hk : ∀ x, t.slot k = some x → x.inFlight = false) : t.ArbiterInv :=
  h.of_marks hq hround (by rw [hgate]) (fun l => by rw [hlane]; exact id) (h.1.inFlight.of_write hround hne hfree hk)

/-! ### Sessions -/

theorem ArbiterInv.teardown (h : s.ArbiterInv) : (s.teardown p).ArbiterInv :=
  h.of_walk (teardown_queue s p) (by simp) (by simp) (fun l => by simp)
    (h.1.inFlight.of_marks (by simp) fun k => by
      rw [teardown_slot, Option.map_map]
      refine Option.map_congr fun x _ => ?_
      dsimp only [Function.comp_apply]
      split <;> rfl)
    (fun _ _ hkept hr => hr.teardown hkept) fun _ _ => isEngaged_teardown p

theorem ArbiterInv.openNew (h : s.ArbiterInv) : (s.openNew p).ArbiterInv :=
  h.of_eq (by simp) (by simp) (by simp) (by simp) (by simp)

theorem ArbiterInv.applyOpen (h : s.ArbiterInv) : (s.applyOpen p).ArbiterInv := by
  unfold State.applyOpen
  split
  · exact h.teardown.openNew
  · exact h.openNew

theorem ArbiterInv.applyClose (h : s.ArbiterInv) : (s.applyClose p).ArbiterInv :=
  ArbiterInv.of_eq (s := s.teardown p) h.teardown rfl rfl rfl (fun _ => rfl) fun _ => rfl

/-! ### Admissions -/

theorem RoundsInv.addRequest (h : s.RoundsInv) (o : Origin) (ks : List SlotNo) : (s.addRequest p o ks).RoundsInv where
  engaged r hr := by
    rw [addRequest_queue, List.mem_append, List.mem_singleton] at hr
    rcases hr with hr | rfl
    · exact h.engaged r hr
    · simp [newRequest]
  inFlight := h.inFlight.of_slot rfl fun _ => rfl
  live round hround := by
    obtain ⟨hlane, r, hr, hengaged⟩ := h.live round hround
    exact ⟨hlane, r, List.mem_append_left _ hr, hengaged⟩

theorem RemainingInv.of_addRequest (h : s.RemainingInv) {o : Origin} {ks : List SlotNo} (hne : ks ≠ []) (hnodup : ks.Nodup)
    (hsub : ∀ k ∈ ks, s.subscribes p k = true) : (s.addRequest p o ks).RemainingInv := by
  intro r hr
  rw [addRequest_queue, List.mem_append, List.mem_singleton] at hr
  rcases hr with hr | rfl
  · exact h r hr
  · exact ⟨hne, hnodup, fun k hk => subscribes_isSome (hsub k hk), fun _ => hsub⟩

theorem ArbiterInv.addRequest (h : s.ArbiterInv) (hrem : s.RemainingInv) {o : Origin} {ks : List SlotNo} (hne : ks ≠ [])
    (hnodup : ks.Nodup) (hsub : ∀ k ∈ ks, s.subscribes p k = true) :
    (s.addRequest p o ks).roundStartCheck.ArbiterInv :=
  (h.1.addRequest o ks).arbiterInv_roundStartCheck (hrem.of_addRequest hne hnodup hsub)

theorem ArbiterInv.expiryAtQueue (h : s.ArbiterInv) (hr : s.RightsInv) (hrem : s.RemainingInv) :
    (s.expiryAtQueue p).ArbiterInv := by
  rcases s.expiryAtQueue_cases p with heq | ⟨e, heq⟩ | ⟨hne, -, -, heq⟩ <;> rw [heq]
  · exact h
  · exact h.of_eq (by simp) (by simp) (by simp) (by simp) (by simp)
  · obtain ⟨hnodup, hsub, -⟩ := hr.2 p
    exact h.addRequest hrem hne hnodup hsub

theorem ArbiterInv.takeTick (h : s.ArbiterInv) (hr : s.RightsInv) (hrem : s.RemainingInv) :
    (s.takeTick p).ArbiterInv := by
  rcases s.takeTick_cases p with heq | ⟨-, -, heq⟩ | ⟨-, heq⟩ <;> rw [heq]
  · exact h
  · exact h.of_eq (by simp) (by simp) (by simp) (by simp) (by simp)
  · exact ArbiterInv.expiryAtQueue (h.of_eq (by simp) (by simp) (by simp) (by simp) (by simp))
      (hr.of_slot (by simp) (by simp) (by simp)) (hrem.of_slot (by simp) (by simp) (by simp))

/-! ### The gate -/

/-- The gate's observed state as its settings and its line level give it, before the arbiter is told (R91). -/
def observing (s : State) : State :=
  { s with gate := { s.gate with observed := observedState s.gate.settings s.gate.line } }

/-- The settings of an accepted SET_GATE and the holder they give, before the observed state is formed (R90). -/
def withGate (s : State) (p : Port) (g : GateSettings) : State :=
  { s with gate := { s.gate with settings := g, holder := if g.enabled then some p else none } }

theorem applyGate_eq (s : State) (p : Port) (g : GateSettings) :
    s.applyGate p g = (s.withGate p g).formObserved.roundStartCheck := rfl

/-- What the gate tells the arbiter (R95, R96). -/
theorem formObserved_cases (s : State) :
    (observedState s.gate.settings s.gate.line = s.gate.observed ∧ s.formObserved = s.observing) ∨
    (s.gate.observed = .opened ∧ observedState s.gate.settings s.gate.line = .shut ∧
      ((s.round = none ∧ s.formObserved = s.observing) ∨
       ∃ round, s.round = some round ∧ s.formObserved = s.observing.abortRound round)) ∨
    (s.gate.observed = .shut ∧ observedState s.gate.settings s.gate.line = .opened ∧
      s.formObserved = s.observing.roundStartCheck) := by
  unfold formObserved observing
  cases ho : s.gate.observed <;> cases hn : observedState s.gate.settings s.gate.line
  · exact .inl ⟨rfl, rfl⟩
  · cases hround : s.round with
    | none => exact .inr (.inl ⟨rfl, rfl, .inl ⟨rfl, rfl⟩⟩)
    | some round => exact .inr (.inl ⟨rfl, rfl, .inr ⟨round, rfl, rfl⟩⟩)
  · exact .inr (.inr ⟨rfl, rfl, rfl⟩)
  · exact .inl ⟨rfl, rfl⟩

theorem RoundsInv.of_eq (h : s.RoundsInv) (hq : t.queue = s.queue) (hround : t.round = s.round)
    (hlane : ∀ l, t.lane l = s.lane l) (hk : ∀ k, t.slot k = s.slot k) : t.RoundsInv where
  engaged := by simpa only [EngagedInv, hq, hround] using h.engaged
  inFlight := h.inFlight.of_slot hround hk
  live := by simpa only [RoundLiveInv, hq, hround, hlane] using h.live

theorem ArbiterInv.formObserved (h : s.ArbiterInv) (hrem : s.RemainingInv) : s.formObserved.ArbiterInv := by
  have hrounds : s.observing.RoundsInv := h.1.of_eq rfl rfl (fun _ => rfl) fun _ => rfl
  have hrem' : s.observing.RemainingInv := hrem.of_slot rfl rfl fun _ => rfl
  rcases s.formObserved_cases with ⟨hsame, heq⟩ | ⟨-, hshut, ⟨-, heq⟩ | ⟨round, hround, heq⟩⟩ | ⟨-, -, heq⟩ <;> rw [heq]
  · exact h.of_marks rfl rfl hsame (fun _ => id) hrounds.inFlight
  · exact ⟨hrounds, fun _ => .inr hshut⟩
  · exact arbiterInv_abortRound hrounds.engaged hrounds.inFlight hrem' hround
  · exact hrounds.arbiterInv_roundStartCheck hrem'

theorem ArbiterInv.quietChange (h : s.ArbiterInv) (hrem : s.RemainingInv) (level : Level) :
    (s.quietChange level).ArbiterInv :=
  ArbiterInv.formObserved (s := { s with gate := { s.gate with line := level } })
    (h.of_marks rfl rfl rfl (fun _ => id) (h.1.inFlight.of_slot rfl fun _ => rfl)) (hrem.of_slot rfl rfl fun _ => rfl)

theorem ArbiterInv.applyGate (h : s.ArbiterInv) (hrem : s.RemainingInv) (p : Port) (g : GateSettings) :
    (s.applyGate p g).ArbiterInv := by
  have hformed : (s.withGate p g).formObserved.ArbiterInv := ArbiterInv.formObserved (s := s.withGate p g)
    (h.of_marks rfl rfl rfl (fun _ => id) (h.1.inFlight.of_slot rfl fun _ => rfl)) (hrem.of_slot rfl rfl fun _ => rfl)
  rw [applyGate_eq]
  refine hformed.1.arbiterInv_roundStartCheck ?_
  exact hrem.of_deeds (QueueRuns.trans (limit := g.abortLimit) (t := s.withGate p g) (.of_eq rfl rfl) (.formObserved (s.withGate p g)))
    ((SameDeeds.of_slot fun _ => rfl).trans (.formObserved (s.withGate p g)))

/-! ### Lanes -/

theorem ended_of_afterDischarge {x : Lane} (h : x.afterDischarge.state = .ended) : x.state = .ended := by
  unfold Lane.afterDischarge at h
  split at h
  · cases h
  · exact h

theorem ended_of_afterPhase {x : Lane} (h : x.afterPhase.state = .ended) : x.state = .ended := by
  unfold Lane.afterPhase at h
  split at h
  · cases h
  · cases h
  · exact h

theorem ended_of_afterTransfer {x : Lane} {crossed : Bool} (h : (x.afterTransfer crossed).state = .ended) :
    x.state = .ended := by
  unfold Lane.afterTransfer at h
  split at h
  · cases h
  · exact h

/-- A lane moves on, and does not end. -/
theorem ArbiterInv.setLane (h : s.ArbiterInv) {x : Lane} (hx : x.state = .ended → (s.lane l).state = .ended) :
    (s.setLane l x).ArbiterInv := by
  refine h.of_marks (by simp) (by simp) (by simp) (fun l' => ?_) (h.1.inFlight.of_slot (by simp) (by simp))
  rw [setLane_lane]
  split
  · exact ‹l' = l› ▸ hx
  · exact id

theorem allEnded_iff : s.allEnded round = true ↔ ∀ l, (round.lanes[l]).isSome = true → (s.lane l).state = .ended := by
  simp only [allEnded, List.all_eq_true, Bool.or_eq_true, decide_eq_true_eq, Option.isNone_iff_eq_none]
  refine forall_congr' fun l => ⟨fun h hs => ?_, fun h _ => ?_⟩
  · rcases h (mem_allLanes l) with hn | he
    · simp [hn] at hs
    · exact he
  · cases hl : round.lanes[l]
    · exact .inl rfl
    · exact .inr (h (by simp [hl]))

theorem ArbiterInv.lanePulseEnd (h : s.ArbiterInv) (hrem : s.RemainingInv) (l : LaneNo) :
    (s.lanePulseEnd l).ArbiterInv := by
  unfold State.lanePulseEnd
  dsimp only
  split
  · have he : (s.setLane l (s.lane l).afterPulse).EngagedInv := by simpa [EngagedInv] using h.1.engaged
    have hf : (s.setLane l (s.lane l).afterPulse).InFlightInv := h.1.inFlight.of_slot (by simp) (by simp)
    unfold completionCheck
    split
    · rename_i hround
      exact ⟨⟨he, hf, fun round hr => absurd (hround.symm.trans hr) (by simp)⟩, by simpa [NoIdleArbiterInv] using h.2⟩
    · rename_i round hround
      split
      · exact arbiterInv_completeRound he hf (hrem.of_slot (by simp) (by simp) (by simp)) hround
      · rename_i hall
        rw [allEnded_iff] at hall
        push Not at hall
        obtain ⟨-, r, hr, hengaged⟩ := h.1.live round (by simpa using hround)
        refine ⟨⟨he, hf, fun round' hround' => ?_⟩, by simpa [NoIdleArbiterInv] using h.2⟩
        obtain rfl : round' = round := Option.some.inj (hround'.symm.trans hround)
        exact ⟨hall, r, by simpa using hr, hengaged⟩
  · rename_i hstays
    exact h.setLane fun he => by
      by_contra hne
      exact hstays ⟨hne, he⟩

/-! ### Slots -/

theorem InFlightInv.setSlot (h : s.InFlightInv) {x y : SlotRecord} (hx : s.slot k = some x)
    (hlane : y.params = x.params) (hfl : y.inFlight = x.inFlight) : (s.setSlot k (some y)).InFlightInv :=
  h.of_marks (by simp) fun k' => by
    rw [setSlot_slot]
    split
    · subst k'
      simp [hx, hlane, hfl]
    · rfl

theorem ArbiterInv.modify (h : s.ArbiterInv) {x : SlotRecord} (hx : s.slot k = some x) (hfl : x.inFlight = false)
    (new : Params) : (s.applyModify k x new).ArbiterInv := by
  refine h.cascade (k := k) (fun q => x.unshares new && decide (q = x.owner.other))
    (fun _ => h.1.inFlight.free_of_inFlight hx hfl) ?_ (by simp) (by simp) (by simp) (fun k' hk' => by simp [hk'])
    (by simp [hfl])
  rw [applyModify_queue]
  cases x.unshares new
  · simp [cascadeFate_kept]
  · simp

theorem ArbiterInv.delete (h : s.ArbiterInv) {x : SlotRecord} (hx : s.slot k = some x) (hfl : x.inFlight = false) :
    ((s.cascade k x fun _ => true).setSlot k none).ArbiterInv :=
  h.cascade (k := k) (fun _ => true) (fun _ => h.1.inFlight.free_of_inFlight hx hfl) (by simp) (by simp) (by simp)
    (by simp) (fun k' hk' => by simp [hk']) (by simp)

theorem ArbiterInv.unsubscribe (h : s.ArbiterInv) {x : SlotRecord} (hx : s.slot k = some x) (hfl : x.inFlight = false) :
    ((s.setSlot k (some { x with subs := x.subs.set p false })).cascade k x fun q => decide (q = p)).ArbiterInv :=
  h.cascade (k := k) (fun q => decide (q = p)) (fun _ => h.1.inFlight.free_of_inFlight hx hfl) (by simp) (by simp)
    (by simp) (by simp) (fun k' hk' => by simp [hk']) (by simp [hfl])

theorem ArbiterInv.recalibrate (h : s.ArbiterInv) {x : SlotRecord} (hx : s.slot k = some x) :
    ((s.postForcedRelease k x).setSlot k (some { x with key := KeyFields.initial })).ArbiterInv :=
  h.of_marks (by simp) (by simp) (by simp) (by simp)
    (InFlightInv.setSlot (x := x) (h.1.inFlight.of_slot (t := s.postForcedRelease k x) (by simp) (by simp))
      (by simpa using hx) rfl rfl)

/-! ### Reset -/

theorem arbiterInv_deviceReset (s : State) : s.deviceReset.ArbiterInv :=
  ⟨AtRest.roundsInv ⟨by simp, by simp, by simp⟩, fun _ => .inl (by simp)⟩

/-- A release finds the hub at its reset values: no request waits, whatever the level of QUIET. -/
theorem ArbiterInv.release (h : s.ArbiterInv) (hreset : s = s.deviceReset) (quiet : Level) :
    (s.release quiet).ArbiterInv :=
  ⟨h.1.of_eq (by simp) (by simp) (by simp) (by simp), fun _ => .inl (by rw [hreset]; simp)⟩

theorem ResetInv.of_running (h : t.resetLow = false) : t.ResetInv := fun hr => by simp [h] at hr

theorem ResetInv.pending (h : s.ResetInv) (l : List Instr) : ResetInv { s with pending := l } := fun hr => by
  rw [h hr]
  rfl

theorem ResetInv.chipSelect (h : s.ResetInv) (p : Port) (low : Bool) :
    (s.setHost p { s.host p with csLow := low }).ResetInv := fun hr => by
  rw [h (by simpa using hr)]
  cases p <;> rfl

theorem resetInv_preserved : Preserved ResetInv where
  pending s l h := h.pending l
  host s p x hr _ := .of_running (by simpa using hr)
  chipSelect s p low hr h := h.chipSelect p low
  deviceReset s _ := fun _ => (deviceReset_deviceReset s).symm
  release s quiet hr _ := .of_running (by simp)
  quiet s level hr _ := .of_running (by simpa using hr)
  tick s hr _ := .of_running (by simpa using hr)
  takeTick s p hr _ := .of_running (by simpa using hr)
  openSession s p hr _ := .of_running (by simpa using hr)
  closeSession s p hr ho _ := .of_running (by simpa using hr)
  define s p k q hr ho hw hk _ := .of_running (by simpa using hr)
  modify s p k x q hr ho hw hx hown hfl _ := .of_running (by simpa using hr)
  delete s p k x hr ho hx hown hfl _ := .of_running (by simpa using hr)
  subscribe s p k x hr ho hx hsub hsh _ := .of_running (by simpa using hr)
  unsubscribe s p k x hr ho hx hown hsub hfl _ := .of_running (by simpa using hr)
  recalibrate s p k x hr ho hx hsub _ := .of_running (by simpa using hr)
  setProfile s p i pf hr ho hc ht hn _ := .of_running hr
  setStanding s p ks hr ho hw hd hsub _ := .of_running (by simpa using hr)
  sweep s p ks hr ho hw hne hd hsub hroom _ := .of_running (by simpa using hr)
  cancel s p id r hr ho hm hid hp _ := .of_running (by simpa using hr)
  setCadence s p c hr ho hc _ := .of_running (by simpa using hr)
  setGate s p g hr ho hg hh _ := .of_running (by simpa using hr)
  fetch s p n hr ho hn _ := .of_running (by simpa using hr)
  ack s p seq i hr ho hi _ := .of_running (by simpa using hr)
  dischargeEnd s l hr _ := .of_running (by simpa using hr)
  phaseEnd s l hr _ := .of_running (by simpa using hr)
  transferEnd s l c hr _ := .of_running (by simpa using hr)
  pulseEnd s l hr _ := .of_running (by simpa using hr)

/-- R48, R49 and R53 rest on the reset values, the subscriptions and the requests' lists. -/
theorem arbiterInv_preserved (K : Preserved fun s => s.ResetInv ∧ s.RightsInv ∧ s.RemainingInv) :
    Preserved fun s => (s.ResetInv ∧ s.RightsInv ∧ s.RemainingInv) ∧ s.ArbiterInv where
  pending s l h := ⟨K.pending s l h.1, h.2.of_eq rfl rfl rfl (fun _ => rfl) fun _ => rfl⟩
  host s p x hr h := ⟨K.host s p x hr h.1, h.2.of_eq (by simp) (by simp) (by simp) (by simp) (by simp)⟩
  chipSelect s p low hr h := ⟨K.chipSelect s p low hr h.1, h.2.of_eq (by simp) (by simp) (by simp) (by simp) (by simp)⟩
  deviceReset s h := ⟨K.deviceReset s h.1, arbiterInv_deviceReset s⟩
  release s quiet hr h := ⟨K.release s quiet hr h.1, h.2.release (h.1.1 hr) quiet⟩
  quiet s level hr h := ⟨K.quiet s level hr h.1, h.2.quietChange h.1.2.2 level⟩
  tick s hr h := ⟨K.tick s hr h.1, h.2.of_eq (by simp) (by simp) (by simp) (by simp) (by simp)⟩
  takeTick s p hr h := ⟨K.takeTick s p hr h.1, h.2.takeTick h.1.2.1 h.1.2.2⟩
  openSession s p hr h := ⟨K.openSession s p hr h.1, h.2.applyOpen⟩
  closeSession s p hr ho h := ⟨K.closeSession s p hr ho h.1, h.2.applyClose⟩
  define s p k q hr ho hw hk h :=
    ⟨K.define s p k q hr ho hw hk h.1,
      h.2.of_write (fun _ => h.2.1.inFlight.free_of_undefined hk) (by simp) (by simp) (by simp) (by simp)
        (fun k' hk' => by simp [hk']) (by simp [newRecord])⟩
  modify s p k x q hr ho hw hx hown hfl h := ⟨K.modify s p k x q hr ho hw hx hown hfl h.1, h.2.modify hx hfl q⟩
  delete s p k x hr ho hx hown hfl h := ⟨K.delete s p k x hr ho hx hown hfl h.1, h.2.delete hx hfl⟩
  subscribe s p k x hr ho hx hsub hsh h :=
    ⟨K.subscribe s p k x hr ho hx hsub hsh h.1,
      h.2.of_marks (by simp) (by simp) (by simp) (by simp) (h.2.1.inFlight.setSlot hx rfl rfl)⟩
  unsubscribe s p k x hr ho hx hown hsub hfl h :=
    ⟨K.unsubscribe s p k x hr ho hx hown hsub hfl h.1, h.2.unsubscribe hx hfl⟩
  recalibrate s p k x hr ho hx hsub h := ⟨K.recalibrate s p k x hr ho hx hsub h.1, h.2.recalibrate hx⟩
  setProfile s p i pf hr ho hc ht hn h :=
    ⟨K.setProfile s p i pf hr ho hc ht hn h.1, h.2.of_eq rfl rfl rfl (fun _ => rfl) fun _ => rfl⟩
  setStanding s p ks hr ho hw hd hsub h :=
    ⟨K.setStanding s p ks hr ho hw hd hsub h.1, h.2.of_eq (by simp) (by simp) (by simp) (by simp) (by simp)⟩
  sweep s p ks hr ho hw hne hd hsub hroom h :=
    ⟨K.sweep s p ks hr ho hw hne hd hsub hroom h.1,
      h.2.addRequest h.1.2.2 hne (nodup_of_sweepList h.1.2.1 hw) (List.all_eq_true.1 hsub)⟩
  cancel s p id r hr ho hm hid hp h :=
    ⟨K.cancel s p id r hr ho hm hid hp h.1,
      h.2.of_walk (walkQueue_queue s _) (by simp) (by simp) (by simp) (h.2.1.inFlight.of_slot (by simp) (by simp))
        (fun _ _ hkept hr => hr.cancel hkept) fun _ _ => isEngaged_cancel id⟩
  setCadence s p c hr ho hc h :=
    ⟨K.setCadence s p c hr ho hc h.1, h.2.of_eq (by simp) (by simp) (by simp) (by simp) (by simp)⟩
  setGate s p g hr ho hg hh h := ⟨K.setGate s p g hr ho hg hh h.1, h.2.applyGate h.1.2.2 p g⟩
  fetch s p n hr ho hn h := ⟨K.fetch s p n hr ho hn h.1, h.2.of_eq (by simp) (by simp) (by simp) (by simp) (by simp)⟩
  ack s p seq i hr ho hi h :=
    ⟨K.ack s p seq i hr ho hi h.1, h.2.of_eq (by simp) (by simp) (by simp) (by simp) (by simp)⟩
  dischargeEnd s l hr h := ⟨K.dischargeEnd s l hr h.1, h.2.setLane ended_of_afterDischarge⟩
  phaseEnd s l hr h := ⟨K.phaseEnd s l hr h.1, h.2.setLane ended_of_afterPhase⟩
  transferEnd s l c hr h := ⟨K.transferEnd s l c hr h.1, h.2.setLane ended_of_afterTransfer⟩
  pulseEnd s l hr h := ⟨K.pulseEnd s l hr h.1, h.2.lanePulseEnd h.1.2.2 l⟩

end State

end Sys2Proof.Machine

namespace Sys2Proof.Proofs

open Sys2Proof.Machine

/-- Settles O57: a round starts from rest and ends in rest; a command writes the record of a slot that no lane converts, or
what the arbiter does not read. -/
theorem stepKeepsRounds : Obligations.StepKeepsRounds := by
  intro s t ⟨hreset, hsub, hstand, hrem, he, hf, hlive, hidle⟩ hstep
  have K := State.resetInv_preserved.and (State.remainingInv_preserved State.rightsInv_preserved)
  obtain ⟨⟨hreset', -, -⟩, ⟨he', hf', hlive'⟩, hidle'⟩ :=
    (State.arbiterInv_preserved K).step ⟨⟨hreset, ⟨hsub, hstand⟩, hrem⟩, ⟨he, hf, hlive⟩, hidle⟩ hstep
  exact ⟨hreset', he', hf', hlive', hidle'⟩

end Sys2Proof.Proofs
end

section
/-! PROOFS. Lanes and key fields (R67, R71–R76, R85, R101–R117): what each step of a conversion keeps of its lane, what each
reading keeps of the key fields, and what every step of the hub keeps of both. -/

namespace Sys2Proof.Machine

variable {s t : State} {p : Port} {k : SlotNo} {l : LaneNo} {x : Lane} {q : Params} {key : KeyFields} {v : Nat}

/-! ## The steps of a conversion -/

namespace Lane.Consistent

theorem afterDischarge (h : x.Consistent) : x.afterDischarge.Consistent := by
  unfold Lane.afterDischarge
  split
  · rename_i hs
    simp only [Lane.Consistent, hs] at h
    obtain ⟨hl, hcount, hread, helapsed⟩ := h
    obtain ⟨-, -, -, -, n, hn, hlow, -⟩ := id hl
    refine ⟨hl, hread, n, hn, ?_, ?_⟩
    · simp only [Lane.enter]
      omega
    · simp [Lane.enter, hcount, helapsed, Lane.phaseClocks, hs, Config.dischargeClocks]
  · exact h

theorem afterPhase (h : x.Consistent) : x.afterPhase.Consistent := by
  unfold Lane.afterPhase
  split
  · rename_i hs
    simp only [Lane.Consistent, hs] at h
    obtain ⟨hl, hread, n, hn, hlt, helapsed⟩ := h
    exact ⟨hl, hread, n, hn, hlt, by simp only [Lane.enter, Lane.phaseClocks, hs, helapsed]; rfl⟩
  · rename_i hs
    simp only [Lane.Consistent, hs] at h
    obtain ⟨hl, hread, n, hn, hlt, helapsed⟩ := h
    exact ⟨hl, hread, n, hn, hlt, by simp only [Lane.enter, Lane.phaseClocks, hs, helapsed]; rfl⟩
  · exact h

theorem afterTransfer (h : x.Consistent) (crossed : Bool) : (x.afterTransfer crossed).Consistent := by
  unfold Lane.afterTransfer
  split
  · rename_i hs
    simp only [Lane.Consistent, hs] at h
    obtain ⟨hl, hread, n, hn, hlt, helapsed⟩ := h
    refine ⟨hl, hread, n, hn, Nat.le_add_left 1 x.counter, hlt, ?_⟩
    have hperiod : x.pulsePeriod = x.charge.getD 0 + x.transfer.getD 0 + 2 * 2 := rfl
    show x.elapsed + x.phaseClocks + 2 = 120 + (x.counter + 1) * x.pulsePeriod
    rw [Nat.succ_mul, helapsed]
    simp only [Lane.phaseClocks, hs]
    omega
  · exact h

theorem afterPulse (h : x.Consistent) : x.afterPulse.Consistent := by
  unfold Lane.afterPulse
  split
  · rename_i crossed hs
    simp only [Lane.Consistent, hs] at h
    obtain ⟨hl, hread, n, hn, hpos, hle, helapsed⟩ := h
    have hclocks : x.elapsed + x.phaseClocks = 120 + x.counter * x.pulsePeriod := by
      simpa only [Lane.phaseClocks, hs, Config.gapClocks] using helapsed
    split
    · exact ⟨hl, n, hn, crossingReading x.counter, rfl, rfl, hpos, hle, by simp [crossingReading],
        decide_eq_true_iff, hclocks⟩
    · split
      · rename_i hlim
        obtain rfl : x.counter = n := Option.some.inj (hlim.symm.trans hn)
        exact ⟨hl, x.counter, hn, limitReading x.counter, rfl, rfl, hpos, hle, fun _ => rfl,
          decide_eq_true_iff, hclocks⟩
      · rename_i hlim
        have hne : x.counter ≠ n := fun heq => hlim (heq ▸ hn)
        exact ⟨hl, hread, n, hn, show x.counter < n by omega, hclocks⟩
  · exact h

/-- A lane with no slot is in IDLE. -/
theorem idle_of_slot (h : x.Consistent) (hs : x.slot = none) : x = Lane.idle := by
  unfold Lane.Consistent at h
  split at h
  · exact h
  all_goals simp [Lane.Loaded, hs] at h

/-- A conversion that begins (R70). -/
theorem start (hq : q.wellFormed = true) {pf : Profile} (hc : 2 ≤ pf.charge ∧ pf.charge ≤ 64)
    (ht : 2 ≤ pf.transfer ∧ pf.transfer ≤ 64) : (startConversion k q pf).Consistent := by
  simp only [Params.wellFormed, Bool.and_eq_true, bne_iff_ne, decide_eq_true_eq] at hq
  obtain ⟨⟨⟨⟨⟨⟨hpads, hlimit⟩, -⟩, -⟩, -⟩, -⟩, -⟩ := hq
  exact ⟨⟨rfl, hpads, ⟨_, rfl, hc⟩, ⟨_, rfl, ht⟩, ⟨_, rfl, hlimit⟩⟩, rfl, rfl, rfl⟩

end Lane.Consistent

@[simp] theorem Lane.afterDischarge_slot (x : Lane) : x.afterDischarge.slot = x.slot := by
  unfold Lane.afterDischarge
  split <;> rfl

@[simp] theorem Lane.afterPhase_slot (x : Lane) : x.afterPhase.slot = x.slot := by
  unfold Lane.afterPhase
  split <;> rfl

@[simp] theorem Lane.afterTransfer_slot (x : Lane) (crossed : Bool) : (x.afterTransfer crossed).slot = x.slot := by
  unfold Lane.afterTransfer
  split <;> rfl

@[simp] theorem Lane.afterPulse_slot (x : Lane) : x.afterPulse.slot = x.slot := by
  unfold Lane.afterPulse
  split
  · split
    · rfl
    · split <;> rfl
  · rfl

/-- What R76 says of a reading that a conversion within the limits of R9 can have. -/
def Reading.InRange (rd : Reading) : Prop := 1 ≤ rd.value ∧ rd.value ≤ 30000 ∧ (rd.low = true ↔ rd.value < 8)

theorem Lane.Consistent.reading_inRange (h : x.Consistent) {rd : Reading} (hr : x.reading = some rd) : rd.InRange := by
  unfold Lane.Consistent at h
  split at h
  · simp [h, Lane.idle] at hr
  · obtain ⟨-, -, hnone, -⟩ := h
    simp [hnone] at hr
  · obtain ⟨-, hnone, -⟩ := h
    simp [hnone] at hr
  · obtain ⟨⟨-, -, -, -, n, hn, -, hmax⟩, n', hn', rd', hrd', -, hpos, hle, -, hlow, -⟩ := h
    obtain rfl : n = n' := Option.some.inj (hn.symm.trans hn')
    obtain rfl : rd = rd' := Option.some.inj (hr.symm.trans hrd')
    exact ⟨hpos, hle.trans hmax, hlow⟩

/-! ## A reading and the key fields -/

/-- The ranges of the parameters that the key machine reads (R9). -/
theorem Params.detection_ranges (hq : q.wellFormed = true) : 1 ≤ q.debounce ∧ q.hold ≤ 255 := by
  simp only [Params.wellFormed, Bool.and_eq_true, decide_eq_true_eq] at hq
  exact ⟨hq.1.1.2.1, hq.2⟩

namespace KeyFields.InRange

/-- The table of R101 with a bad-run count of 0, which every good reading brings. -/
theorem clearBadRun (h : key.InRange q) : InRange q { key with badRun := 0 } := by
  obtain ⟨hbase, hcal, -, -, hstate⟩ := h
  exact ⟨hbase, hcal, fun _ => Nat.zero_le _, Nat.zero_le _, hstate⟩

theorem goodUncal (h : key.InRange q) (hs : key.state = .uncal) (hv : 8 ≤ v ∧ v ≤ 30000) :
    (goodUncal key v).1.InRange q := by
  obtain ⟨hbase, -, hbad, hmax, hstate⟩ := h
  rw [hs] at hstate
  obtain ⟨hnone, hconfirm, hdrift, hhold, hcount, hlow, hhigh⟩ := hstate
  unfold Machine.goodUncal
  dsimp only
  split
  · rename_i hlt
    simp only [Config.calibrationReadings] at hlt
    refine ⟨hbase, fun hne => absurd hs hne, hbad, hmax, ?_⟩
    simp only [hs]
    exact ⟨hnone, hconfirm, hdrift, hhold, by omega, by omega, by omega⟩
  · rename_i hge
    simp only [Config.calibrationReadings] at hge ⊢
    refine ⟨fun b hb => ?_, fun _ => ⟨rfl, rfl⟩, fun _ => hbad (by simp [hs]), hmax, rfl, rfl, rfl, Nat.zero_le _⟩
    obtain rfl : (key.calSum + v) / 4 = b := Option.some.inj hb
    omega

theorem goodIdle (h : key.InRange q) (hs : key.state = .idle) (hq : q.wellFormed = true) (hv : 8 ≤ v ∧ v ≤ 30000) :
    (goodIdle q key v).1.InRange q := by
  obtain ⟨hbase, hcal, hbad, hmax, hstate⟩ := h
  rw [hs] at hstate
  obtain ⟨hsome, hconfirm, hhold, hdrift⟩ := hstate
  obtain ⟨hdebounce, hholdmax⟩ := Params.detection_ranges hq
  replace hcal := hcal (by simp [hs])
  replace hbad := hbad (by simp [hs])
  unfold Machine.goodIdle
  split
  · split
    · exact ⟨hbase, fun _ => hcal, fun _ => hbad, hmax, hsome, rfl, rfl, Nat.zero_le _, fun hne => by dsimp only; omega⟩
    · exact ⟨hbase, fun _ => hcal, fun _ => hbad, hmax, hsome, le_rfl, by dsimp only; omega, rfl, hhold⟩
  · split
    · refine ⟨fun b hb => ?_, fun _ => hcal, fun _ => hbad, hmax, ?_⟩
      · obtain rfl : v = b := Option.some.inj hb
        omega
      · simp only [hs]
        exact ⟨rfl, hconfirm, hhold, Nat.zero_le _⟩
    · split
      · refine ⟨hbase, fun _ => hcal, fun _ => hbad, hmax, ?_⟩
        simp only [hs]
        exact ⟨hsome, hconfirm, hhold, hdrift⟩
      · split
        · refine ⟨hbase, fun _ => hcal, fun _ => hbad, hmax, ?_⟩
          simp only [hs]
          exact ⟨hsome, hconfirm, hhold, by omega⟩
        · refine ⟨fun b hb => ?_, fun _ => hcal, fun _ => hbad, hmax, ?_⟩
          · obtain rfl : driftStep key.base v = b := Option.some.inj hb
            obtain ⟨b₀, hb₀⟩ := Option.isSome_iff_exists.1 hsome
            have hrange := hbase b₀ hb₀
            simp only [KeyFields.base, hb₀, Option.getD_some, driftStep]
            split
            · omega
            · split <;> omega
          · simp only [hs]
            exact ⟨rfl, hconfirm, hhold, Nat.zero_le _⟩

theorem goodArming (h : key.InRange q) (hs : key.state = .arming) :
    (goodArming q key v).1.InRange q := by
  obtain ⟨hbase, hcal, hbad, hmax, hstate⟩ := h
  rw [hs] at hstate
  obtain ⟨hsome, hpos, hlt, hdrift, hhold⟩ := hstate
  replace hcal := hcal (by simp [hs])
  replace hbad := hbad (by simp [hs])
  unfold Machine.goodArming
  split
  · split
    · exact ⟨hbase, fun _ => hcal, fun _ => hbad, hmax, hsome, rfl, hdrift, Nat.zero_le _, fun hne => by
        dsimp only; omega⟩
    · refine ⟨hbase, fun _ => hcal, fun _ => hbad, hmax, ?_⟩
      simp only [hs]
      exact ⟨hsome, Nat.le_add_left _ _, by omega, hdrift, hhold⟩
  · exact ⟨hbase, fun _ => hcal, fun _ => hbad, hmax, hsome, rfl, hhold, Nat.zero_le _⟩

theorem forceRelease (hcal : key.calSum = 0 ∧ key.calCount = 0) (hbad : key.badRun ≤ 2) (hv : 8 ≤ v ∧ v ≤ 30000) :
    (forceRelease key v).1.InRange q := by
  refine ⟨fun b hb => ?_, fun _ => hcal, fun _ => hbad, by dsimp only [Machine.forceRelease]; omega, rfl, rfl, rfl,
    Nat.zero_le _⟩
  obtain rfl : v = b := Option.some.inj hb
  omega

theorem confirmRelease (hbase : ∀ b ∈ key.baseline, 1 ≤ b ∧ b ≤ 30000) (hsome : key.baseline.isSome = true)
    (hcal : key.calSum = 0 ∧ key.calCount = 0) (hbad : key.badRun ≤ 2) : (confirmRelease key v).1.InRange q :=
  ⟨hbase, fun _ => hcal, fun _ => hbad, by dsimp only [Machine.confirmRelease]; omega, hsome, rfl, rfl, Nat.zero_le _⟩

/-- Below the hold limit the raised hold count stays below it (R111). -/
theorem raisedHold (hlt : q.hold ≠ 0 → key.hold < q.hold) (hne : ¬ (q.hold ≠ 0 ∧ key.raisedHold = q.hold)) :
    key.raisedHold ≤ 255 ∧ (q.hold ≠ 0 → key.raisedHold < q.hold) := by
  unfold KeyFields.raisedHold Config.holdMax at *
  refine ⟨by omega, fun hq => ?_⟩
  have := hlt hq
  omega

theorem goodHeld (h : key.InRange q) (hs : key.state = .held) (hq : q.wellFormed = true) (hv : 8 ≤ v ∧ v ≤ 30000) :
    (goodHeld q key v).1.InRange q := by
  obtain ⟨hbase, hcal, hbad, hmax, hstate⟩ := h
  rw [hs] at hstate
  obtain ⟨hsome, hconfirm, hdrift, -, hhold⟩ := hstate
  obtain ⟨hdebounce, -⟩ := Params.detection_ranges hq
  replace hcal := hcal (by simp [hs])
  replace hbad := hbad (by simp [hs])
  unfold Machine.goodHeld
  split
  · exact forceRelease hcal hbad hv
  · have hraised := raisedHold hhold ‹_›
    split
    · refine ⟨hbase, fun _ => hcal, fun _ => hbad, hmax, ?_⟩
      simp only [hs]
      exact ⟨hsome, hconfirm, hdrift, hraised⟩
    · split
      · exact confirmRelease hbase hsome hcal hbad
      · exact ⟨hbase, fun _ => hcal, fun _ => hbad, hmax, hsome, le_rfl, by dsimp only; omega, hdrift, hraised⟩

theorem goodLifting (h : key.InRange q) (hs : key.state = .lifting) (hv : 8 ≤ v ∧ v ≤ 30000) :
    (goodLifting q key v).1.InRange q := by
  obtain ⟨hbase, hcal, hbad, hmax, hstate⟩ := h
  rw [hs] at hstate
  obtain ⟨hsome, hpos, hlt, hdrift, -, hhold⟩ := hstate
  replace hcal := hcal (by simp [hs])
  replace hbad := hbad (by simp [hs])
  unfold Machine.goodLifting
  split
  · exact forceRelease hcal hbad hv
  · have hraised := raisedHold hhold ‹_›
    split
    · exact ⟨hbase, fun _ => hcal, fun _ => hbad, hmax, hsome, rfl, hdrift, hraised⟩
    · split
      · exact confirmRelease hbase hsome hcal hbad
      · refine ⟨hbase, fun _ => hcal, fun _ => hbad, hmax, ?_⟩
        simp only [hs]
        exact ⟨hsome, Nat.le_add_left _ _, by omega, hdrift, hraised⟩

theorem goodReading (h : key.InRange q) (hq : q.wellFormed = true) (hv : 8 ≤ v ∧ v ≤ 30000) :
    (goodReading q key v).1.InRange q := by
  have h' := h.clearBadRun
  unfold Machine.goodReading
  dsimp only
  split
  · exact goodUncal h' ‹_› hv
  · exact goodIdle h' ‹_› hq hv
  · exact goodArming h' ‹_›
  · exact goodHeld h' ‹_› hq hv
  · exact goodLifting h' ‹_› hv
  · exact h'

theorem badReading (h : key.InRange q) : (badReading key v).1.InRange q := by
  obtain ⟨hbase, hcal, hbad, hmax, hstate⟩ := h
  unfold Machine.badReading
  split
  · rename_i hs
    exact ⟨hbase, hcal, fun hne => absurd hs hne, Nat.min_le_left _ _, by simpa [hs] using hstate⟩
  · split
    · rename_i hlt
      simp only [Config.badRunLimit] at hlt
      exact ⟨hbase, hcal, fun _ => by dsimp only; omega, by dsimp only; omega, hstate⟩
    · exact ⟨hbase, fun _ => ⟨rfl, rfl⟩, fun hne => absurd rfl hne, le_rfl, rfl, rfl, rfl⟩

theorem takeReading (h : key.InRange q) (hq : q.wellFormed = true) {rd : Reading} (hr : rd.InRange) :
    (takeReading q key rd).1.InRange q := by
  unfold Machine.takeReading
  split
  · exact h.badReading
  · rename_i hgood
    obtain ⟨-, hmax, hlow⟩ := hr
    refine h.goodReading hq ⟨?_, hmax⟩
    simp only [Reading.bad, Bool.or_eq_true, not_or] at hgood
    by_contra hlt
    exact hgood.2 (hlow.2 (by omega))

theorem initial (q : Params) : KeyFields.initial.InRange q := by
  simp [InRange, KeyFields.initial]

end KeyFields.InRange

/-! ## A detection-only MODIFY and the key fields -/

/-- The key state in which a detection-only MODIFY leaves a slot: a decision in progress is dropped (R15). -/
def KeyState.settled : KeyState → KeyState
  | .arming => .idle
  | .lifting => .held
  | st => st

/-- R15, field by field. -/
theorem detectionAdjust_eq (old new : Params) (key : KeyFields) :
    detectionAdjust old new key =
      { key with
        state := key.state.settled
        confirm := if key.state = .arming ∨ key.state = .lifting then 0 else key.confirm
        drift := if new.drift = old.drift then key.drift else 0
        hold := if new.hold ≠ 0 ∧ new.hold ≤ key.hold then new.hold - 1 else key.hold } := by
  obtain ⟨st, baseline, confirm, drift, badRun, hold, calSum, calCount⟩ := key
  unfold detectionAdjust
  by_cases hd : old.drift = new.drift
  · by_cases hh : new.hold ≠ 0 ∧ new.hold ≤ hold <;> cases st <;> simp [KeyState.settled, hd, hh]
  · have hd' : ¬ new.drift = old.drift := fun h => hd h.symm
    by_cases hh : new.hold ≠ 0 ∧ new.hold ≤ hold <;> cases st <;> simp [KeyState.settled, hd, hd', hh]

theorem KeyState.pressed_settled (st : KeyState) : st.settled.pressed = st.pressed := by cases st <;> rfl

/-- The hold count after a MODIFY that lowers the hold limit to it or below it (R15). -/
theorem adjustedHold_lt {new hold : Nat} (hne : new ≠ 0) :
    (if new ≠ 0 ∧ new ≤ hold then new - 1 else hold) < new := by
  split <;> omega

theorem adjustedHold_le (new hold : Nat) : (if new ≠ 0 ∧ new ≤ hold then new - 1 else hold) ≤ hold := by
  split <;> omega

theorem KeyFields.InRange.detectionAdjust {old new : Params} (h : key.InRange old) :
    (detectionAdjust old new key).InRange new := by
  rw [detectionAdjust_eq]
  obtain ⟨hbase, hcal, hbad, hmax, hstate⟩ := h
  have hhold := adjustedHold_le new.hold key.hold
  have hlim := @adjustedHold_lt new.hold key.hold
  generalize (if new.hold ≠ 0 ∧ new.hold ≤ key.hold then new.hold - 1 else key.hold) = hold at hhold hlim ⊢
  refine ⟨hbase, fun hne => hcal ?_, fun hne => hbad ?_, hmax, ?_⟩
  · rintro hs
    simp [hs, KeyState.settled] at hne
  · rintro hs
    simp [hs, KeyState.settled] at hne
  · cases hs : key.state <;> simp only [hs] at hstate <;> simp only [KeyState.settled, reduceCtorEq, or_self, or_true,
      true_or, if_true, if_false]
    case uncal =>
      obtain ⟨hnone, hconfirm, hdrift, hheld, hcount⟩ := hstate
      exact ⟨hnone, hconfirm, by simp [hdrift], by omega, hcount⟩
    case idle =>
      obtain ⟨hsome, hconfirm, hheld, hdrift⟩ := hstate
      refine ⟨hsome, hconfirm, by omega, ?_⟩
      split
      · rename_i heq
        rwa [heq]
      · exact Nat.zero_le _
    case arming =>
      obtain ⟨hsome, -, -, hdrift, hheld⟩ := hstate
      exact ⟨hsome, trivial, by omega, by simp [hdrift]⟩
    case held =>
      obtain ⟨hsome, hconfirm, hdrift, hheld, -⟩ := hstate
      exact ⟨hsome, hconfirm, by simp [hdrift], by omega, hlim⟩
    case lifting =>
      obtain ⟨hsome, -, -, hdrift, hheld, -⟩ := hstate
      exact ⟨hsome, trivial, by simp [hdrift], by omega, hlim⟩
    case fault =>
      obtain ⟨hconfirm, hdrift, hheld⟩ := hstate
      exact ⟨hconfirm, by simp [hdrift], by omega⟩

/-! ## Slot records -/

/-- One record's part of `State.ParamsInv` and `State.KeyInv`. -/
def SlotRecord.Sound (r : SlotRecord) : Prop :=
  r.params.wellFormed = true ∧ r.key.InRange r.params ∧ (r.key.state.pressed = true → r.last.isSome = true) ∧
    ∀ l ∈ r.last, 1 ≤ l.reading.value ∧ l.reading.value ≤ 30000

namespace SlotRecord.Sound

variable {r r' : SlotRecord}

/-- Subscribers, owner and mark are not read. -/
theorem of_eq (h : r.Sound) (hp : r'.params = r.params) (hk : r'.key = r.key) (hl : r'.last = r.last) : r'.Sound := by
  simpa only [SlotRecord.Sound, hp, hk, hl] using h

theorem newRecord (p : Port) (hq : q.wellFormed = true) : (newRecord p q).Sound :=
  ⟨hq, KeyFields.InRange.initial q, by simp [Machine.newRecord, KeyFields.initial, KeyState.pressed],
    by simp [Machine.newRecord]⟩

/-- RECALIBRATE (R117). -/
theorem restarted (h : r.Sound) : Sound { r with key := KeyFields.initial } := by
  obtain ⟨hq, -, -, hlast⟩ := h
  exact ⟨hq, KeyFields.InRange.initial _, by simp [KeyFields.initial, KeyState.pressed], hlast⟩

/-- MODIFY (R13–R15). -/
theorem modified (h : r.Sound) (hq : q.wellFormed = true) : (modifiedRecord r q).Sound := by
  obtain ⟨hwf, hkey, hpressed, hlast⟩ := h
  unfold modifiedRecord
  split
  · exact ⟨hwf, hkey, hpressed, hlast⟩
  · refine ⟨hq, hkey.detectionAdjust, fun hp => hpressed ?_, hlast⟩
    dsimp only at hp
    rwa [detectionAdjust_eq, KeyState.pressed_settled] at hp
  · exact ⟨hq, KeyFields.InRange.initial q, by simp [KeyFields.initial, KeyState.pressed], by simp⟩

theorem modifiedTo (h : r.Sound) (hq : q.wellFormed = true) : (r.modifiedTo q).Sound :=
  (h.modified hq).of_eq (by simp) (by simp) (by simp)

/-- A reading handed on (R57). -/
theorem withReading (h : r.Sound) {rd : Reading} (hrd : rd.InRange) (tick : Word) : (r.withReading rd tick).Sound := by
  obtain ⟨hq, hkey, -, -⟩ := h
  refine ⟨hq, hkey.takeReading hq hrd, fun _ => rfl, fun l hl => ?_⟩
  obtain rfl : ({ reading := rd, tick := tick } : LastReading) = l := Option.some.inj hl
  exact ⟨hrd.1, hrd.2.1⟩

end SlotRecord.Sound

/-! ## The hub -/

/-- `State.ParamsInv` and `State.KeyInv`. -/
def State.SlotsInv (s : State) : Prop := ∀ k r, s.slot k = some r → r.Sound

/-- What conversions rest on and bring about: profiles, slot records and lanes. -/
structure State.ConversionInv (s : State) : Prop where
  profiles : s.ProfileInv
  slots : s.SlotsInv
  lanes : s.LaneInv

namespace State

theorem slotsInv_iff : s.SlotsInv ↔ s.ParamsInv ∧ s.KeyInv :=
  ⟨fun h => ⟨fun k r hr => (h k r hr).1, fun k r hr => (h k r hr).2⟩, fun h k r hr => ⟨h.1 k r hr, h.2 k r hr⟩⟩

theorem SlotsInv.of_map (h : s.SlotsInv) {f : SlotNo → SlotRecord → SlotRecord} (hf : ∀ k r, r.Sound → (f k r).Sound)
    (hk : ∀ k, t.slot k = (s.slot k).map (f k) ∨ t.slot k = s.slot k) : t.SlotsInv := by
  intro k r hr
  rcases hk k with heq | heq <;> rw [heq] at hr
  · obtain ⟨y, hy, rfl⟩ := Option.map_eq_some_iff.1 hr
    exact hf k y (h k y hy)
  · exact h k r hr

theorem SlotsInv.of_slot (h : s.SlotsInv) (hk : ∀ k, t.slot k = s.slot k) : t.SlotsInv := fun k r hr =>
  h k r (hk k ▸ hr)

theorem SlotsInv.of_write (h : s.SlotsInv) (hne : ∀ k', k' ≠ k → t.slot k' = s.slot k')
    (hk : ∀ r, t.slot k = some r → r.Sound) : t.SlotsInv := fun k' r hr => by
  by_cases hkk : k' = k
  · exact hk r (hkk ▸ hr)
  · exact h k' r (hne k' hkk ▸ hr)

theorem SlotsInv.handLanes (h : s.SlotsInv) (round : Round) (ls : List LaneNo)
    (hread : ∀ l rd, (s.lane l).reading = some rd → rd.InRange) : (ls.foldl (handLane round) s).SlotsInv := by
  induction ls generalizing s with
  | nil => exact h
  | cons l ls ih =>
    refine ih ?_ fun l' rd hrd => hread l' rd (by simpa using hrd)
    unfold handLane
    split
    · rename_i k rd _ hrd
      refine h.of_map (f := fun _ r => r.withReading rd s.tick) (fun _ _ hr => hr.withReading (hread l rd hrd) _)
        fun k' => ?_
      rw [handReading_slot]
      split
      · exact .inl (‹k' = k› ▸ rfl)
      · exact .inr rfl
    · exact h

theorem SlotsInv.clearRound (h : s.SlotsInv) (round : Round) : (s.clearRound round).SlotsInv :=
  h.of_map (f := fun _ r => { r with inFlight := false }) (fun _ _ hr => hr.of_eq rfl rfl rfl) fun k => by
    rw [clearRound_slot]
    exact ite_eq_or_eq _ _ _

theorem LaneInv.of_eq (h : s.LaneInv) (hl : ∀ l, t.lane l = s.lane l) (hround : t.round = s.round) : t.LaneInv :=
  fun l => by
    rw [hl, hround]
    exact h l

theorem LaneInv.of_idle (hl : ∀ l, s.lane l = Lane.idle) (hround : s.round = none) : s.LaneInv := fun l => by
  rw [hl, hround]
  exact ⟨rfl, rfl⟩

theorem LaneInv.setLane (h : s.LaneInv) (hc : x.Consistent) (hs : x.slot = (s.lane l).slot) : (s.setLane l x).LaneInv := by
  intro l'
  rw [setLane_lane, setLane_round]
  split
  · exact ⟨hc, hs.trans (‹l' = l› ▸ (h l).2)⟩
  · exact h l'

theorem LaneInv.reading_inRange (h : s.LaneInv) (l : LaneNo) (rd : Reading) (hr : (s.lane l).reading = some rd) :
    rd.InRange := (h l).1.reading_inRange hr

namespace ConversionInv

theorem of_eq (h : s.ConversionInv) (hp : t.profiles = s.profiles) (hk : ∀ k, t.slot k = s.slot k)
    (hl : ∀ l, t.lane l = s.lane l) (hround : t.round = s.round) : t.ConversionInv :=
  ⟨h.profiles.of_eq hp, h.slots.of_slot hk, h.lanes.of_eq hl hround⟩

theorem roundStart (h : s.ConversionInv) (hround : s.round = none) (hq : s.queue ≠ []) : s.roundStart.ConversionInv where
  profiles := h.profiles.of_eq (by simp)
  slots := h.slots.of_map (f := fun _ r => { r with inFlight := true }) (fun _ _ hr => hr.of_eq rfl rfl rfl) fun k => by
    rw [roundStart_slot]
    exact ite_eq_or_eq _ _ _
  lanes l := by
    rw [roundStart_lane, roundStart_round, Option.bind_some]
    cases hk : s.newRound.lanes[l] with
    | none =>
      rw [startedLane_of_none hk]
      exact ⟨(h.lanes l).1, by simpa [hround] using (h.lanes l).2⟩
    | some k =>
      obtain ⟨hlane, -⟩ := laneChoice_some hq (s.newRound_lanes l ▸ hk)
      obtain ⟨r, hr, -⟩ := laneOf_eq_some_iff.1 hlane
      rw [startedLane_of_some hk hr]
      obtain ⟨hc₁, hc₂, ht⟩ := h.profiles r.params.profile
      exact ⟨.start (h.slots k r hr).1 ⟨hc₁, hc₂⟩ ht, rfl⟩

theorem roundStartCheck (h : s.ConversionInv) : s.roundStartCheck.ConversionInv := by
  unfold State.roundStartCheck
  split
  · obtain ⟨hround, hq, -⟩ := roundMayStart_iff.1 ‹_›
    exact h.roundStart hround hq
  · exact h

theorem completeRound (h : s.ConversionInv) {round : Round} (hround : s.round = some round) :
    (s.completeRound round).ConversionInv := by
  refine roundStartCheck (s := s.completed round) ⟨h.profiles.of_eq (by simp [completed]), ?_, ?_⟩
  · exact SlotsInv.clearRound ((h.slots.handLanes round allLanes h.lanes.reading_inRange).of_slot fun k => walkQueue_slot ..)
      round
  · refine .of_idle (fun l => ?_) rfl
    rw [completed, clearRound_lane, walkQueue_lane, handLanes_lane]
    split
    · rfl
    · rename_i hnone
      refine (h.lanes l).1.idle_of_slot ?_
      rw [(h.lanes l).2, hround]
      simpa using hnone

theorem abortRound (h : s.ConversionInv) (round : Round) : (s.abortRound round).ConversionInv :=
  roundStartCheck (s := s.aborted round)
    ⟨h.profiles.of_eq (by simp [aborted]),
      SlotsInv.of_slot (SlotsInv.clearRound (h.slots.of_slot fun k => walkQueue_slot ..) round) fun k => idleLanes_slot ..,
      .of_idle (by simp [aborted]) rfl⟩

theorem formObserved (h : s.ConversionInv) : s.formObserved.ConversionInv := by
  have h' : s.observing.ConversionInv := h.of_eq rfl (fun _ => rfl) (fun _ => rfl) rfl
  rcases s.formObserved_cases with ⟨-, heq⟩ | ⟨-, -, ⟨-, heq⟩ | ⟨round, -, heq⟩⟩ | ⟨-, -, heq⟩ <;> rw [heq]
  · exact h'
  · exact h'
  · exact h'.abortRound round
  · exact h'.roundStartCheck

theorem quietChange (h : s.ConversionInv) (level : Level) : (s.quietChange level).ConversionInv :=
  formObserved (s := { s with gate := { s.gate with line := level } }) (h.of_eq rfl (fun _ => rfl) (fun _ => rfl) rfl)

theorem applyGate (h : s.ConversionInv) (p : Port) (g : GateSettings) : (s.applyGate p g).ConversionInv :=
  (formObserved (s := s.withGate p g) (h.of_eq rfl (fun _ => rfl) (fun _ => rfl) rfl)).roundStartCheck

theorem addRequest (h : s.ConversionInv) (p : Port) (o : Origin) (ks : List SlotNo) :
    (s.addRequest p o ks).roundStartCheck.ConversionInv :=
  roundStartCheck (h.of_eq rfl (fun _ => rfl) (fun _ => rfl) rfl)

theorem expiryAtQueue (h : s.ConversionInv) : (s.expiryAtQueue p).ConversionInv := by
  rcases s.expiryAtQueue_cases p with heq | ⟨e, heq⟩ | ⟨-, -, -, heq⟩ <;> rw [heq]
  · exact h
  · exact h.of_eq (by simp) (by simp) (by simp) (by simp)
  · exact h.addRequest p _ _

theorem takeTick (h : s.ConversionInv) : (s.takeTick p).ConversionInv := by
  rcases s.takeTick_cases p with heq | ⟨-, -, heq⟩ | ⟨-, heq⟩ <;> rw [heq]
  · exact h
  · exact h.of_eq (by simp) (by simp) (by simp) (by simp)
  · exact expiryAtQueue (h.of_eq (by simp) (by simp) (by simp) (by simp))

theorem setLane (h : s.ConversionInv) (hc : x.Consistent) (hs : x.slot = (s.lane l).slot) :
    (s.setLane l x).ConversionInv := ⟨h.profiles.of_eq (by simp), h.slots.of_slot (by simp), h.lanes.setLane hc hs⟩

theorem lanePulseEnd (h : s.ConversionInv) (l : LaneNo) : (s.lanePulseEnd l).ConversionInv := by
  have h' : (s.setLane l (s.lane l).afterPulse).ConversionInv := h.setLane (h.lanes l).1.afterPulse (by simp)
  unfold State.lanePulseEnd State.completionCheck
  dsimp only
  split
  · split
    · exact h'
    · split
      · exact h'.completeRound ‹_›
      · exact h'
  · exact h'

/-- The record of one slot is written, or removed. -/
theorem of_write (h : s.ConversionInv) (hp : t.profiles = s.profiles) (hl : ∀ l, t.lane l = s.lane l)
    (hround : t.round = s.round) (hne : ∀ k', k' ≠ k → t.slot k' = s.slot k')
    (hk : ∀ r, t.slot k = some r → r.Sound) : t.ConversionInv :=
  ⟨h.profiles.of_eq hp, h.slots.of_write hne hk, h.lanes.of_eq hl hround⟩

theorem setSlot (h : s.ConversionInv) {r : SlotRecord} (hr : r.Sound) : (s.setSlot k (some r)).ConversionInv :=
  h.of_write (k := k) (by simp) (by simp) (by simp) (fun k' hk' => by simp [hk']) fun r' hr' => by
    obtain rfl : r = r' := by simpa using hr'
    exact hr

theorem teardown (h : s.ConversionInv) : (s.teardown p).ConversionInv :=
  ⟨h.profiles.of_eq (by simp),
    h.slots.of_map (f := fun _ r => if r.owner = p then r else { r with subs := r.subs.set p false })
      (fun _ r hr => by split <;> exact hr.of_eq rfl rfl rfl) fun k => .inl (teardown_slot s p k),
    h.lanes.of_eq (by simp) (by simp)⟩

theorem applyOpen (h : s.ConversionInv) : (s.applyOpen p).ConversionInv := by
  unfold State.applyOpen
  split
  · exact ConversionInv.of_eq (s := s.teardown p) h.teardown (by simp) (by simp) (by simp) (by simp)
  · exact h.of_eq (by simp) (by simp) (by simp) (by simp)

theorem applyClose (h : s.ConversionInv) : (s.applyClose p).ConversionInv :=
  ConversionInv.of_eq (s := s.teardown p) h.teardown rfl (fun _ => rfl) (fun _ => rfl) rfl

theorem deviceReset (s : State) : s.deviceReset.ConversionInv :=
  ⟨profileInv_deviceReset s, fun k r hr => by simp at hr, .of_idle (by simp) (by simp)⟩

theorem modify (h : s.ConversionInv) {r : SlotRecord} (hr : s.slot k = some r) (hq : q.wellFormed = true) :
    (s.applyModify k r q).ConversionInv :=
  h.of_write (k := k) (by simp) (by simp) (by simp) (fun k' hk' => by simp [hk']) fun r' hr' => by
    obtain rfl : r.modifiedTo q = r' := by simpa using hr'
    exact (h.slots k r hr).modifiedTo hq

theorem delete (h : s.ConversionInv) {r : SlotRecord} : ((s.cascade k r fun _ => true).setSlot k none).ConversionInv :=
  h.of_write (k := k) (by simp) (by simp) (by simp) (fun k' hk' => by simp [hk']) (by simp)

theorem unsubscribe (h : s.ConversionInv) {r : SlotRecord} (hr : s.slot k = some r) :
    ((s.setSlot k (some { r with subs := r.subs.set p false })).cascade k r fun q => decide (q = p)).ConversionInv :=
  of_eq (s := s.setSlot k (some { r with subs := r.subs.set p false }))
    (h.setSlot (SlotRecord.Sound.of_eq (h.slots k r hr) rfl rfl rfl)) (by simp) (by simp) (by simp) (by simp)

theorem postForcedRelease (h : s.ConversionInv) (k : SlotNo) (r : SlotRecord) :
    (s.postForcedRelease k r).ConversionInv := h.of_eq (by simp) (by simp) (by simp) (by simp)

theorem preserved : Preserved ConversionInv where
  pending _ _ h := h.of_eq rfl (fun _ => rfl) (fun _ => rfl) rfl
  host _ _ _ _ h := h.of_eq (by simp) (by simp) (by simp) (by simp)
  chipSelect _ _ _ _ h := h.of_eq (by simp) (by simp) (by simp) (by simp)
  deviceReset s _ := .deviceReset s
  release _ _ _ h := h.of_eq (by simp) (by simp) (by simp) (by simp)
  quiet _ level _ h := h.quietChange level
  tick _ _ h := h.of_eq (by simp) (by simp) (by simp) (by simp)
  takeTick _ _ _ h := h.takeTick
  openSession _ _ _ h := h.applyOpen
  closeSession _ _ _ _ h := h.applyClose
  define _ p _ _ _ _ hw _ h := h.setSlot (.newRecord p hw)
  modify _ _ _ _ _ _ _ hw hx _ _ h := h.modify hx hw
  delete _ _ _ _ _ _ _ _ _ h := h.delete
  subscribe _ _ k x _ _ hx _ _ h := h.setSlot ((h.slots k x hx).of_eq rfl rfl rfl)
  unsubscribe _ _ _ _ _ _ hx _ _ _ h := h.unsubscribe hx
  recalibrate _ _ k x _ _ hx _ h := (h.postForcedRelease k x).setSlot (h.slots k x hx).restarted
  setProfile _ _ i _ _ _ hc ht _ h :=
    ⟨h.profiles.set i hc ht, h.slots.of_slot fun _ => rfl, h.lanes.of_eq (fun _ => rfl) rfl⟩
  setStanding _ _ _ _ _ _ _ _ h := h.of_eq (by simp) (by simp) (by simp) (by simp)
  sweep _ p ks _ _ _ _ _ _ _ h := h.addRequest p _ ks
  cancel _ _ _ _ _ _ _ _ _ h := h.of_eq (by simp) (by simp) (by simp) (by simp)
  setCadence _ _ _ _ _ _ h := h.of_eq (by simp) (by simp) (by simp) (by simp)
  setGate _ p g _ _ _ _ h := h.applyGate p g
  fetch _ _ _ _ _ _ h := h.of_eq (by simp) (by simp) (by simp) (by simp)
  ack _ _ _ _ _ _ _ h := h.of_eq (by simp) (by simp) (by simp) (by simp)
  dischargeEnd _ l _ h := h.setLane (h.lanes l).1.afterDischarge (by simp)
  phaseEnd _ l _ h := h.setLane (h.lanes l).1.afterPhase (by simp)
  transferEnd _ l c _ h := h.setLane ((h.lanes l).1.afterTransfer c) (by simp)
  pulseEnd _ l _ h := h.lanePulseEnd l

end ConversionInv

end State

end Sys2Proof.Machine

namespace Sys2Proof.Proofs

open Sys2Proof.Machine

/-- Settles O58: a conversion begins from a record and a profile in range, each of its steps keeps its lane in range, and so
does each reading it hands on the key fields. -/
theorem stepKeepsLanesAndKeys : Obligations.StepKeepsLanesAndKeys := by
  intro s t ⟨hprof, hparams, hlane, hkey⟩ hstep
  obtain ⟨hprof', hslots', hlane'⟩ :=
    State.ConversionInv.preserved.step ⟨hprof, State.slotsInv_iff.2 ⟨hparams, hkey⟩, hlane⟩ hstep
  obtain ⟨hparams', hkey'⟩ := State.slotsInv_iff.1 hslots'
  exact ⟨hprof', hparams', hlane', hkey'⟩

end Sys2Proof.Proofs
end

section
/-! PROOFS. Host ports (R173–R181): what any command can do to a host port and to the queue of the commands behind it, and
what every step keeps of the host ports. -/

namespace Sys2Proof.Machine

variable {s t u : State} {p : Port} {h h' : HostPort}

/-! ## What a command does to the host ports -/

/-- The effect of a command on the blocks: the host ports, RESET# and the waiting commands stand as they were. -/
structure Aside (s t : State) : Prop where
  pending : t.pending = s.pending
  resetLow : t.resetLow = s.resetLow
  host : ∀ q, t.host q = s.host q

theorem Aside.refl (s : State) : Aside s s := ⟨rfl, rfl, fun _ => rfl⟩

/-- What a command can do to the hub as the host ports see it. -/
inductive PortEffect (s : State) : State → Prop
  /-- The blocks change, or nothing. -/
  | aside {t : State} (ha : Aside s t) : PortEffect s t
  /-- The port's taken command is executed and its answer built (R181). -/
  | answers {u : State} {p : Port} {f : Frame} (r : Outgoing) (hr : s.resetLow = false)
      (hw : (s.host p).work = .taken f) (ha : Aside s u) : PortEffect s (u.answer p r)
  | place (p : Port) (hr : s.resetLow = false) : PortEffect s (s.setHost p (s.host p).place)
  | clock (p : Port) (e : ClockEdge) (hr : s.resetLow = false) : PortEffect s (s.setHost p ((s.host p).clock p e))
  | start (p : Port) : PortEffect s (s.chipSelectEdge p true HostPort.start)
  | finish (p : Port) : PortEffect s (s.chipSelectEdge p false HostPort.finish)
  | deviceReset : PortEffect s s.deviceReset
  | release (quiet : Level) (hr : s.resetLow = true) : PortEffect s (s.release quiet)

/-- A host command's row executes the frame its port has taken, or does nothing. -/
theorem PortEffect.of_runCommand {mine : Frame → Bool} {needs : Bool} {act : State → Frame → Answer}
    (hact : ∀ f s' payload, act s f = .accept s' payload → Aside s s') (h : runCommand mine needs act p s = .next t) :
    PortEffect s t := by
  rcases runCommand_cases h with rfl | ⟨f, hr, hw, -, ⟨st, rfl⟩ | ⟨-, -, s', payload, ha, rfl⟩⟩
  · exact .aside (.refl _)
  · exact .answers _ hr hw (.refl s)
  · exact .answers _ hr hw (hact f s' payload ha)

/-- An event in a running hub that leaves the host ports alone. -/
theorem PortEffect.of_whileRunning {f : State → State} (hf : Aside s (f s)) (h : s.whileRunning f = .next t) :
    PortEffect s t := by
  unfold State.whileRunning at h
  injection h with h
  subst h
  split
  · exact .aside (.refl s)
  · exact .aside hf

theorem Aside.of_setCadenceAction {f : Frame} {payload : List Byte} {s' : State}
    (h : setCadenceAction p s f = .accept s' payload) : Aside s s' := by
  obtain ⟨c, -, rfl⟩ := setCadenceAction_accept h
  exact ⟨by simp, by simp, by simp⟩

theorem exec_portEffect {i : Instr} (h : exec i s = .next t) : PortEffect s t := by
  cases i with
  | deviceReset =>
    injection h with h
    exact h ▸ .deviceReset
  | resetRelease quiet =>
    injection h with h
    subst h
    split
    · exact .release quiet ‹_›
    · exact .aside (.refl s)
  | quietLevelChange level =>
    exact .of_whileRunning (f := fun s => s.quietChange level) ⟨by simp, by simp, by simp⟩ h
  | tick => exact .of_whileRunning (f := State.timeBaseTick) ⟨by simp, by simp, by simp⟩ h
  | cadenceExpiry p => exact .of_whileRunning (f := fun s => s.takeTick p) ⟨by simp, by simp, by simp⟩ h
  | dischargeEnd l =>
    exact .of_whileRunning (f := fun s => s.setLane l (s.lane l).afterDischarge) ⟨by simp, by simp, by simp⟩ h
  | pulsePhaseEnd l =>
    exact .of_whileRunning (f := fun s => s.setLane l (s.lane l).afterPhase) ⟨by simp, by simp, by simp⟩ h
  | transferPhaseEnd l crossed =>
    exact .of_whileRunning (f := fun s => s.setLane l ((s.lane l).afterTransfer crossed)) ⟨by simp, by simp, by simp⟩ h
  | pulseEnd l => exact .of_whileRunning (f := fun s => s.lanePulseEnd l) ⟨by simp, by simp, by simp⟩ h
  | transactionStart p =>
    injection h with h
    exact h ▸ .start p
  | transactionEnd p =>
    injection h with h
    exact h ▸ .finish p
  | responsePlacement p =>
    injection h with h
    subst h
    split
    · exact .aside (.refl s)
    · exact .place p (by simp_all)
  | serialClockEdge p e =>
    injection h with h
    subst h
    split
    · exact .aside (.refl s)
    · exact .clock p e (by simp_all)
  | resend p =>
    injection h with h
    subst h
    split
    · exact .aside (.refl s)
    · rename_i hr
      replace hr : s.resetLow = false := by simpa using hr
      beta_reduce
      split
      · exact .aside (.refl s)
      · rename_i f hf
        have hw := s.takenFrame_eq_some.1 hf
        split
        · unfold State.resendAction
          split
          · exact .answers _ hr hw (.refl s)
          · exact .answers _ hr hw (.refl s)
        · exact .aside (.refl s)
  | unknownCode p => exact .of_runCommand (fun _ _ _ ha => by cases ha) h
  | openSession p =>
    refine .of_runCommand (fun f s' payload ha => ?_) h
    injection ha with ha _
    exact ha ▸ ⟨by simp, by simp, by simp⟩
  | closeSession p =>
    refine .of_runCommand (fun f s' payload ha => ?_) h
    injection ha with ha _
    exact ha ▸ ⟨by simp, by simp, by simp⟩
  | status p =>
    refine .of_runCommand (fun f s' payload ha => ?_) h
    injection ha with ha _
    exact ha ▸ .refl s
  | define p =>
    refine .of_runCommand (fun f s' payload ha => ?_) h
    obtain ⟨k, q, -, -, rfl⟩ := defineAction_accept ha
    exact ⟨by simp, by simp, by simp⟩
  | modify p =>
    refine .of_runCommand (fun f s' payload ha => ?_) h
    obtain ⟨k, r, q, -, -, -, -, rfl⟩ := modifyAction_accept ha
    exact ⟨by simp, by simp, by simp⟩
  | delete p =>
    refine .of_runCommand (fun f s' payload ha => ?_) h
    obtain ⟨k, r, -, -, -, rfl⟩ := deleteAction_accept ha
    exact ⟨by simp, by simp, by simp⟩
  | subscribe p =>
    refine .of_runCommand (fun f s' payload ha => ?_) h
    obtain ⟨k, r, -, ⟨-, rfl⟩ | ⟨-, -, rfl⟩⟩ := subscribeAction_accept ha
    · exact .refl _
    · exact ⟨by simp, by simp, by simp⟩
  | unsubscribe p =>
    refine .of_runCommand (fun f s' payload ha => ?_) h
    obtain ⟨k, r, -, -, ⟨-, rfl⟩ | ⟨-, -, rfl⟩⟩ := unsubscribeAction_accept ha
    · exact .refl _
    · exact ⟨by simp, by simp, by simp⟩
  | readSlot p =>
    refine .of_runCommand (fun f s' payload ha => ?_) h
    exact readSlotAction_accept ha ▸ .refl _
  | recalibrate p =>
    refine .of_runCommand (fun f s' payload ha => ?_) h
    obtain ⟨k, r, -, -, rfl⟩ := recalibrateAction_accept ha
    exact ⟨by simp, by simp, by simp⟩
  | setProfile p =>
    refine .of_runCommand (fun f s' payload ha => ?_) h
    obtain ⟨i, pf, -, -, -, rfl⟩ := setProfileAction_accept ha
    exact ⟨rfl, rfl, fun _ => rfl⟩
  | setStanding p =>
    refine .of_runCommand (fun f s' payload ha => ?_) h
    obtain ⟨ks, -, -, -, rfl⟩ := setStandingAction_accept ha
    exact ⟨by simp, by simp, by simp⟩
  | sweep p =>
    refine .of_runCommand (fun f s' payload ha => ?_) h
    obtain ⟨ks, -, -, -, -, -, rfl⟩ := sweepAction_accept ha
    exact ⟨by simp, by simp, by simp⟩
  | cancel p =>
    refine .of_runCommand (fun f s' payload ha => ?_) h
    obtain ⟨id, r, -, -, -, rfl⟩ := cancelAction_accept ha
    exact ⟨by simp, by simp, by simp⟩
  | load p => exact .of_runCommand (fun _ _ _ => Aside.of_setCadenceAction) h
  | stage p => exact .of_runCommand (fun _ _ _ => Aside.of_setCadenceAction) h
  | stop p => exact .of_runCommand (fun _ _ _ => Aside.of_setCadenceAction) h
  | resume p => exact .of_runCommand (fun _ _ _ => Aside.of_setCadenceAction) h
  | setGate p =>
    refine .of_runCommand (fun f s' payload ha => ?_) h
    obtain ⟨g, -, -, rfl⟩ := setGateAction_accept ha
    exact ⟨by simp, by simp, by simp⟩
  | fetch p =>
    refine .of_runCommand (fun f s' payload ha => ?_) h
    obtain ⟨n, -, rfl⟩ := fetchAction_accept ha
    exact ⟨by simp, by simp, by simp⟩
  | ack p =>
    refine .of_runCommand (fun f s' payload ha => ?_) h
    obtain ⟨seq, i, -, rfl⟩ := ackAction_accept ha
    exact ⟨by simp, by simp, by simp⟩

theorem PortEffect.pending (h : PortEffect s t) : t.pending = s.pending := by
  cases h with
  | aside ha => exact ha.pending
  | answers _ _ _ ha => simpa using ha.pending
  | place => simp
  | clock => simp
  | start => simp [State.chipSelectEdge]
  | finish => simp [State.chipSelectEdge]
  | deviceReset => simp
  | release => simp

/-! ## A consistent host port -/

namespace HostPort.Consistent

theorem executing_iff : h.executing = true ↔ h.work ≠ .none := by simp [HostPort.executing]

/-- The answer of a command in execution (R181). -/
theorem answer (hc : h.Consistent) {f : Frame} (hw : h.work = .taken f) (r : Outgoing) :
    Consistent { h with work := .answered r } := by
  have hx : h.executing = true := executing_iff.2 (by simp [hw])
  obtain ⟨hbuf, htr⟩ := hc
  refine ⟨fun _ => hbuf hx, fun t ht => ?_⟩
  obtain ⟨hlow, hbits, hresponse, hnone⟩ := htr t ht
  exact ⟨hlow, hbits, fun hm => by simp [hx] at hresponse; exact absurd hm hresponse,
    fun hm => by simp [hx] at hnone; exact absurd hm hnone⟩

theorem place (hc : h.Consistent) : h.place.Consistent := by
  unfold HostPort.place
  split
  · rename_i r hw
    have hx : h.executing = true := executing_iff.2 (by simp [hw])
    obtain ⟨hbuf, htr⟩ := hc
    refine ⟨fun hx' => by simp [HostPort.executing] at hx', fun t ht => ?_⟩
    obtain ⟨hlow, hbits, hresponse, hnone⟩ := htr t ht
    exact ⟨hlow, hbits, fun _ => ⟨by simp [HostPort.executing], rfl⟩,
      fun hm => absurd (hx.symm.trans (hnone hm).1) (by decide)⟩
  · exact hc

theorem start (hc : h.Consistent) : h.start.Consistent := by
  unfold HostPort.start
  split
  · exact hc
  · refine ⟨hc.1, fun t ht => ?_⟩
    obtain rfl := Option.some.inj ht
    refine ⟨rfl, by simp, fun hm => ?_, fun hm => ?_⟩ <;>
      simp only [HostPort.marker] at hm <;> split at hm <;> simp_all [HostPort.executing, Option.isSome_iff_ne_none]

theorem clock (hc : h.Consistent) (p : Port) (e : ClockEdge) : (h.clock p e).Consistent := by
  obtain ⟨hbuf, htr⟩ := id hc
  unfold HostPort.clock
  split
  · exact hc
  · split
    · exact ⟨hbuf, fun t ht => htr t ht⟩
    · exact hc
  · rename_i t sdi ht
    obtain ⟨hlow, hbits, hresponse, hnone⟩ := htr t ht
    refine ⟨hbuf, fun t' ht' => ?_⟩
    obtain rfl := Option.some.inj ht'
    unfold Transaction.sample
    split
    · exact ⟨hlow, by simp; omega, hresponse, hnone⟩
    · exact ⟨hlow, by simp, hresponse, hnone⟩
  · exact ⟨hbuf, htr⟩

/-- A command is taken at the end of a transaction only where the buffer is empty then (R179, R180). -/
theorem buffer_none_of_workAfter (hc : h.Consistent) {t : Transaction} (ht : h.transaction = some t)
    (hw : h.workAfter t ≠ .none) : (h.settleResponse t).buffer = none := by
  obtain ⟨hbuf, htr⟩ := hc
  obtain ⟨-, -, hresponse, hnone⟩ := htr t ht
  have hold : h.work ≠ .none → (h.settleResponse t).buffer = none := fun hne => by
    have := hbuf (executing_iff.2 hne)
    unfold HostPort.settleResponse
    split <;> simp [this]
  unfold HostPort.workAfter at hw
  split at hw
  · split at hw
    · rename_i hmay
      unfold HostPort.mayTake at hmay
      split at hmay
      · cases hmay
      · rename_i hm
        have := (hnone hm).2
        unfold HostPort.settleResponse
        split <;> simp [this]
      · obtain ⟨r, hr⟩ := Option.isSome_iff_exists.1 hmay
        simp [HostPort.settleResponse, hr]
    · exact hold hw
  · exact hold hw

theorem finish (hc : h.Consistent) : h.finish.Consistent := by
  unfold HostPort.finish
  split
  · split
    · rename_i ht
      exact ⟨hc.1, fun t ht' => by simp [ht] at ht'⟩
    · rename_i t ht
      exact ⟨fun hx => hc.buffer_none_of_workAfter ht (executing_iff.1 hx), fun t' ht' => by simp at ht'⟩
  · exact hc

end HostPort.Consistent

/-! ## Every step -/

/-- One port's part of `State.HostPortInv`, under the level of RESET#. -/
def HostPort.Sound (h : HostPort) (resetLow : Bool) : Prop :=
  h.Consistent ∧ (h.sdo.isSome = true ↔ h.csLow = true ∧ resetLow = false) ∧ (resetLow = true → h.transaction = none)

namespace HostPort.Sound

variable {low : Bool}

theorem answer (hs : h.Sound low) {f : Frame} (hw : h.work = .taken f) (r : Outgoing) :
    Sound { h with work := .answered r } low := ⟨hs.1.answer hw r, hs.2⟩

theorem place (hs : h.Sound low) : h.place.Sound low := by
  refine ⟨hs.1.place, ?_⟩
  unfold HostPort.place
  split <;> exact hs.2

theorem clock (hs : h.Sound false) (p : Port) (e : ClockEdge) : (h.clock p e).Sound false := by
  refine ⟨hs.1.clock p e, ?_, by simp⟩
  obtain ⟨⟨-, htr⟩, hsdo, -⟩ := hs
  unfold HostPort.clock
  split
  · exact hsdo
  · split
    · rename_i hlow
      simp [HostPort.driveOpen, hlow]
    · exact hsdo
  · exact hsdo
  · rename_i t ht
    simp [(htr t ht).1]

theorem start (hs : h.Sound false) : h.start.Sound false := by
  refine ⟨hs.1.start, ?_, by simp⟩
  unfold HostPort.start
  split
  · exact hs.2.1
  · simp

theorem finish (hs : h.Sound false) : h.finish.Sound false := by
  refine ⟨hs.1.finish, ?_, by simp⟩
  unfold HostPort.finish
  split
  · split <;> simp
  · exact hs.2.1

/-- While RESET# is low an edge of xCS# moves that pin alone (R174). -/
theorem chipSelect (hs : h.Sound true) (low : Bool) : Sound { h with csLow := low } true := by
  obtain ⟨⟨hbuf, -⟩, hsdo, htr⟩ := hs
  have ht := htr rfl
  refine ⟨⟨hbuf, fun t ht' => by simp [ht] at ht'⟩, ?_, fun _ => ht⟩
  simpa using hsdo

theorem deviceReset (h : HostPort) : h.deviceReset.Sound true := by
  simp [Sound, HostPort.Consistent, HostPort.deviceReset, HostPort.reset, HostPort.executing]

theorem release (hs : h.Sound true) (p : Port) : (h.release p).Sound false := by
  obtain ⟨⟨hbuf, -⟩, hsdo, htr⟩ := hs
  have ht := htr rfl
  unfold HostPort.release
  split
  · rename_i hlow
    exact ⟨⟨hbuf, fun t ht' => by simp [HostPort.driveOpen, ht] at ht'⟩, by simp [HostPort.driveOpen, hlow], by simp⟩
  · rename_i hhigh
    exact ⟨⟨hbuf, fun t ht' => by simp [ht] at ht'⟩, by simpa [hhigh] using hsdo, by simp⟩

end HostPort.Sound

theorem State.hostPortInv_iff : s.HostPortInv ↔ ∀ q, (s.host q).Sound s.resetLow := Iff.rfl

namespace State.HostPortInv

theorem setHost (hs : s.HostPortInv) (hh : h.Sound s.resetLow) : (s.setHost p h).HostPortInv := by
  rw [State.hostPortInv_iff] at hs ⊢
  intro q
  rw [State.setHost_host, State.setHost_resetLow]
  split
  · exact hh
  · exact hs q

theorem of_aside (hs : s.HostPortInv) (ha : Aside s t) : t.HostPortInv := by
  rw [State.hostPortInv_iff] at hs ⊢
  intro q
  rw [ha.host, ha.resetLow]
  exact hs q

theorem chipSelectEdge (hs : s.HostPortInv) (low : Bool) {act : HostPort → HostPort}
    (hact : ∀ h : HostPort, h.Sound false → (act h).Sound false) : (s.chipSelectEdge p low act).HostPortInv := by
  have hp := State.hostPortInv_iff.1 hs p
  unfold State.chipSelectEdge
  refine hs.setHost ?_
  cases hr : s.resetLow <;> rw [hr] at hp
  · exact hact _ hp
  · exact hp.chipSelect low

theorem of_effect (hs : s.HostPortInv) (he : PortEffect s t) : t.HostPortInv := by
  have hp := State.hostPortInv_iff.1 hs
  cases he with
  | aside ha => exact hs.of_aside ha
  | @answers u p f r hr hw ha =>
    refine (hs.of_aside ha).setHost ?_
    rw [ha.host, ha.resetLow]
    exact (hp p).answer hw r
  | place p hr => exact hs.setHost (hp p).place
  | clock p e hr =>
    refine hs.setHost ?_
    rw [hr]
    exact (hr ▸ hp p).clock p e
  | start p => exact hs.chipSelectEdge true fun _ => HostPort.Sound.start
  | finish p => exact hs.chipSelectEdge false fun _ => HostPort.Sound.finish
  | deviceReset =>
    refine State.hostPortInv_iff.2 fun q => ?_
    rw [State.deviceReset_host]
    exact HostPort.Sound.deviceReset _
  | release quiet hr =>
    refine State.hostPortInv_iff.2 fun q => ?_
    rw [State.release_host, State.release_resetLow]
    exact (hr ▸ hp q).release q

end State.HostPortInv

end Sys2Proof.Machine

namespace Sys2Proof.Proofs

open Sys2Proof.Machine

/-- Settles O59: of all that a command does, only the edges at a port, its answer, its placement and the two events of RESET#
reach a host port. -/
theorem stepKeepsHostPorts : Obligations.StepKeepsHostPorts := by
  intro s t hs hstep
  unfold step at hstep
  split at hstep
  · injection hstep with hstep
    exact hstep ▸ hs
  · rename_i c rest _
    exact State.HostPortInv.of_effect (s := { s with pending := rest }) hs (exec_portEffect hstep)

/-- Settles O3: no effect of a command reaches the queue behind it. -/
theorem everyCommandAnswersNext : Obligations.EveryCommandAnswersNext := by
  intro i s
  obtain ⟨t, ht⟩ := exec_next i s
  exact ⟨t, ht, (exec_portEffect ht).pending⟩

end Sys2Proof.Proofs
end

section
/-! PROOFS. Rounds (R48–R62) and the ends of pulses (R73–R75): what a round start, a round completion and a round abort make
of the hub and what they post, and what the removal cascade posts. -/

namespace Sys2Proof.Machine

variable {s t : State} {p q : Port} {k : SlotNo} {l : LaneNo} {round : Round} {r : SweepRequest}

/-! ## What a walk over the queue posts -/

/-- The events that some posts hand to port `q`, in order. -/
def eventsTo (q : Port) (es : List (Port × Event)) : List Event := (es.filter fun pe => decide (pe.1 = q)).map (·.2)

/-- Port `q`'s queue after some events handed to it one by one, none of them while its session is CLOSED (R143, R146). -/
def State.posted (s : State) (q : Port) (es : List Event) : EventQueue :=
  if (s.session q).isOpen = true then es.foldl (fun Q e => Q.post e s.tick) (s.events q) else s.events q

theorem State.posted_posted (hsession : (t.session q).isOpen = (s.session q).isOpen) (htick : t.tick = s.tick)
    {es es' : List Event} (hevents : t.events q = s.posted q es) : t.posted q es' = s.posted q (es ++ es') := by
  unfold posted at hevents ⊢
  rw [hsession, htick, hevents]
  split <;> simp

theorem State.posted_nil (s : State) (q : Port) : s.posted q [] = s.events q := by simp [posted]

theorem walkQueue_posted (s : State) (q : Port) (fate : SweepRequest → Fate) :
    (s.walkQueue fate).events q = s.posted q (s.queue.flatMap fun r => eventsTo q (fate r).events) := by
  rw [State.walkQueue_events, State.posted, List.filter_flatMap]
  simp only [eventsTo, ← List.map_flatMap, List.foldl_map]

theorem eventsTo_report (q : Port) (r : SweepRequest) (e : Event) :
    eventsTo q (r.report e) = if r.port ≠ q ∨ r.stale = true then [] else [e] := by
  unfold SweepRequest.report
  by_cases hs : r.stale = true <;> by_cases hp : r.port = q <;> simp [eventsTo, hs, hp]

/-- What round completion posts of a request to port `q` (R42, R43, R58). -/
theorem eventsTo_creditFate (q : Port) (r : SweepRequest) :
    eventsTo q (creditFate r).events =
      if r.engaged = [] ∨ r.port ≠ q ∨ r.stale = true then []
      else if r.cancelling = true then [sweepEvent .sweepCancelled r.id r.rest.length none]
      else if r.rest = [] then [sweepEvent .sweepDone r.id (r.measured + r.remaining.length) (some r.skipped)]
      else [] := by
  rw [creditFate_eq]
  by_cases he : r.engaged = []
  · simp [he, Fate.events, eventsTo]
  by_cases hc : r.cancelling = true
  · simp [he, hc, Fate.events, eventsTo_report, SweepRequest.credited_eq, cancelledEvent]
  by_cases hrest : r.rest = []
  · simp [he, hc, hrest, Fate.events, eventsTo_report, SweepRequest.credited_eq, doneEvent]
  · simp [he, hc, hrest, Fate.events, eventsTo]

/-- What round abort posts of a request to port `q` (R42, R43, R61). -/
theorem eventsTo_abortFate (limit : Nat) (q : Port) (r : SweepRequest) :
    eventsTo q (abortFate limit r).events =
      if r.engaged = [] ∨ r.port ≠ q ∨ r.stale = true then []
      else if r.cancelling = true then [sweepEvent .sweepCancelled r.id r.remaining.length none]
      else if limit ≤ r.aborts + 1 then [sweepEvent .sweepAborted r.id r.remaining.length none]
      else [] := by
  rw [abortFate_eq]
  by_cases he : r.engaged = []
  · simp [he, Fate.events, eventsTo]
  by_cases hc : r.cancelling = true
  · simp [he, hc, Fate.events, eventsTo_report, cancelledEvent]
  by_cases hlimit : limit ≤ r.aborts + 1
  · simp [he, hc, hlimit, Fate.events, eventsTo_report, abortedEvent]
  · simp [he, hc, hlimit, Fate.events, eventsTo]

theorem SweepRequest.without_remaining_eq_nil : (r.without k).remaining = [] ↔ ∀ y ∈ r.remaining, y = k := by
  simp [SweepRequest.without, List.filter_eq_nil_iff]

/-- What the removal cascade posts of a request to port `q` (R20, R41, R43). -/
theorem eventsTo_cascadeFate (k : SlotNo) (losing : Port → Bool) (q : Port) (r : SweepRequest) :
    eventsTo q (cascadeFate k losing r).events =
      if losing r.port = true ∧ k ∈ r.remaining ∧ (∀ y ∈ r.remaining, y = k) ∧ r.port = q ∧ r.stale = false then
        [sweepEvent .sweepDone r.id r.measured (some (r.skipped + 1))]
      else [] := by
  have hnil := r.without_remaining_eq_nil (k := k)
  rw [cascadeFate_eq]
  by_cases hl : losing r.port = true ∧ k ∈ r.remaining
  · rw [if_pos hl]
    by_cases hk : ∀ y ∈ r.remaining, y = k
    · rw [if_pos (hnil.2 hk), Fate.events, eventsTo_report]
      by_cases hreports : r.port = q ∧ r.stale = false
      · rw [if_neg (by simp [hreports]), if_pos ⟨hl.1, hl.2, hk, hreports⟩]
        rfl
      · rw [if_pos (by simpa [imp_iff_not_or] using hreports), if_neg fun h => hreports h.2.2.2]
    · rw [if_neg (mt hnil.1 hk), if_neg fun h => hk h.2.2.1]
      rfl
  · rw [if_neg hl, if_neg fun h => hl ⟨h.1, h.2.1⟩]
    rfl

/-! ## What a removal cascade posts -/

theorem State.post_posted (s : State) (p q : Port) (e : Event) :
    (s.post p e).events q = s.posted q (if q = p then [e] else []) := by
  rw [post_events, posted]
  by_cases hq : q = p <;> simp [hq]

/-- Step 1 of the cascade (R20). -/
def State.strippedStandings (s : State) (k : SlotNo) (losing : Port → Bool) : State :=
  let s := if losing .a then s.stripStanding k .a else s
  if losing .b then s.stripStanding k .b else s

theorem State.cascade_eq (s : State) (k : SlotNo) (x : SlotRecord) (losing : Port → Bool) :
    s.cascade k x losing =
      if losing x.owner.other = true ∧ x.subs.get x.owner.other = true then
        ((s.strippedStandings k losing).walkQueue (cascadeFate k losing)).post x.owner.other (slotGoneEvent k)
      else (s.strippedStandings k losing).walkQueue (cascadeFate k losing) := by
  simp only [← Bool.and_eq_true]
  rfl

section

variable (s : State) (k : SlotNo) (losing : Port → Bool) (q : Port)

@[simp] theorem State.strippedStandings_queue : (s.strippedStandings k losing).queue = s.queue := by
  unfold strippedStandings
  cases losing .a <;> cases losing .b <;> simp

@[simp] theorem State.strippedStandings_tick : (s.strippedStandings k losing).tick = s.tick := by
  unfold strippedStandings
  cases losing .a <;> cases losing .b <;> simp

@[simp] theorem State.strippedStandings_session : (s.strippedStandings k losing).session q = s.session q := by
  unfold strippedStandings
  cases losing .a <;> cases losing .b <;> simp

@[simp] theorem State.strippedStandings_events : (s.strippedStandings k losing).events q = s.events q := by
  unfold strippedStandings
  cases losing .a <;> cases losing .b <;> simp

end

/-- SLOT_GONE goes to a subscribed non-owner among the losing ports (R21). -/
theorem State.cascade_posted (s : State) (k : SlotNo) (x : SlotRecord) (losing : Port → Bool) (q : Port) :
    (s.cascade k x losing).events q =
      s.posted q ((s.queue.flatMap fun r => eventsTo q (cascadeFate k losing r).events) ++
        if losing q = true ∧ q ≠ x.owner ∧ x.subs.get q = true then [keyEvent k .slotGone 0 false false] else []) := by
  have hwalk : ((s.strippedStandings k losing).walkQueue (cascadeFate k losing)).events q =
      s.posted q (s.queue.flatMap fun r => eventsTo q (cascadeFate k losing r).events) := by
    simp [walkQueue_posted, posted]
  have hother : q ≠ x.owner ↔ q = x.owner.other := ⟨Port.eq_other_of_ne, fun h => h ▸ Port.other_ne _⟩
  rw [cascade_eq]
  by_cases hgone : losing x.owner.other = true ∧ x.subs.get x.owner.other = true
  · rw [if_pos hgone, post_posted, posted_posted (by simp) (by simp) hwalk]
    by_cases hq : q = x.owner.other
    · rw [if_pos hq, if_pos ⟨hq ▸ hgone.1, hother.2 hq, hq ▸ hgone.2⟩, slotGoneEvent]
    · rw [if_neg hq, if_neg fun h => hq (hother.1 h.2.1)]
  · rw [if_neg hgone, hwalk, if_neg, List.append_nil]
    rintro ⟨hl, hne, hs⟩
    exact hgone (hother.1 hne ▸ ⟨hl, hs⟩)

/-! ## What a round completion hands on and posts -/

/-- The events of a reading handed on for slot `k` that go to port `q` (R57, R121). -/
def State.readingPosts (s : State) (q : Port) (k : SlotNo) (rd : Reading) : List Event :=
  match s.slot k with
  | some x =>
    if x.subs.get q = true then
      (if x.params.stream = true then [readingEvent k rd (takeReading x.params x.key rd).1.baseline] else []) ++
      ((takeReading x.params x.key rd).2.map fun e => keyEvent k e.kind e.value e.forced e.washeld).toList
    else []
  | none => []

/-- The events of the reading of lane `l` that go to port `q` (R57). -/
def State.lanePosts (s : State) (round : Round) (q : Port) (l : LaneNo) : List Event :=
  match round.lanes[l], (s.lane l).reading with
  | some k, some rd => s.readingPosts q k rd
  | _, _ => []

theorem State.handReading_posted (s : State) (k : SlotNo) (rd : Reading) (q : Port) :
    (s.handReading k rd).events q = s.posted q (s.readingPosts q k rd) := by
  unfold handReading readingPosts
  cases s.slot k with
  | none => simp [posted]
  | some x =>
    dsimp only
    cases hev : (takeReading x.params x.key rd).2 <;> cases x.params.stream <;> cases hsub : x.subs.get q <;>
      cases ho : (s.session q).isOpen <;> simp [posted, postSubs_events, hsub, ho]

theorem State.handLane_posted (s : State) (round : Round) (l : LaneNo) (q : Port) :
    (handLane round s l).events q = s.posted q (s.lanePosts round q l) := by
  unfold handLane lanePosts
  cases round.lanes[l] <;> cases (s.lane l).reading
  case some.some k rd => exact s.handReading_posted k rd q
  all_goals exact (s.posted_nil q).symm

/-- What a lane posts does not hang on the lanes before it, which convert other slots. -/
theorem State.lanePosts_handLane (hdistinct : ∀ k, round.lanes[l] = some k → ∀ l' : LaneNo, round.lanes[l'] = some k → l = l')
    {l' : LaneNo} (hne : l' ≠ l) (s : State) (q : Port) :
    (handLane round s l).lanePosts round q l' = s.lanePosts round q l' := by
  unfold lanePosts
  rw [handLane_lane]
  split
  · rename_i k rd hk _
    unfold readingPosts
    rw [handLane_slot_of_ne s fun hl => hne (hdistinct k hl l' hk).symm]
  · rfl

theorem State.handLanes_posted
    (hdistinct : ∀ (l l' : LaneNo) (k : SlotNo), round.lanes[l] = some k → round.lanes[l'] = some k → l = l')
    (q : Port) (ls : List LaneNo) (hnodup : ls.Nodup) (s : State) :
    (ls.foldl (handLane round) s).events q = s.posted q (ls.flatMap (s.lanePosts round q)) := by
  induction ls generalizing s with
  | nil => exact (s.posted_nil q).symm
  | cons l ls ih =>
    obtain ⟨hl, hls⟩ := List.nodup_cons.1 hnodup
    have hposts : ls.flatMap ((handLane round s l).lanePosts round q) = ls.flatMap (s.lanePosts round q) :=
      List.flatMap_congr fun l' hl' =>
        lanePosts_handLane (fun k hk l' => hdistinct l l' k hk) (fun he => hl (he ▸ hl')) s q
    rw [List.foldl_cons, ih hls, hposts, posted_posted (by simp) (by simp) (s.handLane_posted round l q), List.flatMap_cons]

theorem State.completeRound_posted
    (hdistinct : ∀ (l l' : LaneNo) (k : SlotNo), round.lanes[l] = some k → round.lanes[l'] = some k → l = l')
    (s : State) (q : Port) :
    (s.completeRound round).events q =
      s.posted q (allLanes.flatMap (s.lanePosts round q) ++ s.queue.flatMap fun r => eventsTo q (creditFate r).events) := by
  rw [completeRound_eq, roundStartCheck_events, completed, clearRound_events, walkQueue_posted,
    posted_posted (by simp) (by simp) (handLanes_posted hdistinct q allLanes (by decide) s), handLanes_queue]

/-- The one lane that converts slot `k` hands its reading to the slot (R57). -/
theorem State.handLanes_slot_of_mem {x : SlotRecord} {rd : Reading} (hk : round.lanes[l] = some k)
    (hunique : ∀ l' : LaneNo, round.lanes[l'] = some k → l' = l) (ls : List LaneNo) (hnodup : ls.Nodup) (hl : l ∈ ls)
    (s : State) (hx : s.slot k = some x) (hrd : (s.lane l).reading = some rd) :
    (ls.foldl (handLane round) s).slot k = some (x.withReading rd s.tick) := by
  induction ls generalizing s with
  | nil => cases hl
  | cons l₀ ls ih =>
    obtain ⟨hl₀, hls⟩ := List.nodup_cons.1 hnodup
    rw [List.foldl_cons]
    by_cases he : l₀ = l
    · subst he
      rw [handLanes_slot_of_ne ls _ fun l' hl' hk' => hl₀ (hunique l' hk' ▸ hl')]
      unfold handLane
      simp only [hk, hrd, handReading_slot, if_true, hx, Option.map_some]
    · have hx' : (handLane round s l₀).slot k = some x := by
        rw [handLane_slot_of_ne s fun hk' => he (hunique l₀ hk'), hx]
      rw [ih hls ((List.mem_cons.1 hl).resolve_left fun h => he h.symm) _ hx' (by simpa using hrd), handLane_tick]

theorem State.completed_slot_of_lane {x : SlotRecord} {rd : Reading} (hk : round.lanes[l] = some k)
    (hunique : ∀ l' : LaneNo, round.lanes[l'] = some k → l' = l) (hx : s.slot k = some x)
    (hrd : (s.lane l).reading = some rd) :
    (s.completed round).slot k = some { x.withReading rd s.tick with inFlight := false } := by
  rw [completed, clearRound_slot, if_pos (Round.holds_iff.2 ⟨l, hk⟩), walkQueue_slot,
    handLanes_slot_of_mem hk hunique allLanes (by decide) (mem_allLanes l) s hx hrd, Option.map_some]

/-! ## The end of a pulse -/

/-- The lane in ENDED with the reading of its comparison (R74–R76). -/
def Lane.endedWith (x : Lane) (crossed : Bool) : Lane :=
  { x with
    state := .ended
    elapsed := x.elapsed + 2
    reading := some { value := x.counter, sat := !crossed, low := decide (x.counter < 8) } }

namespace Lane

variable {x : Lane} {crossed : Bool}

theorem phaseClocks_gapAfterTransfer (hx : x.state = .pulsing (.gapAfterTransfer crossed)) : x.phaseClocks = 2 := by
  simp [phaseClocks, hx, Config.gapClocks]

theorem afterPulse_next (hx : x.state = .pulsing (.gapAfterTransfer crossed)) (hc : crossed = false)
    (hlimit : x.limit ≠ some x.counter) :
    x.afterPulse = { x with state := .pulsing .charge, elapsed := x.elapsed + 2 } := by
  unfold afterPulse
  simp only [hx, hc, Bool.false_eq_true, if_false, if_neg hlimit, enter, phaseClocks_gapAfterTransfer hx]

theorem afterPulse_end (hx : x.state = .pulsing (.gapAfterTransfer crossed))
    (hend : crossed = true ∨ x.limit = some x.counter) : x.afterPulse = x.endedWith crossed := by
  unfold afterPulse
  simp only [hx]
  cases crossed
  · have hlimit := hend.resolve_left Bool.false_ne_true
    simp only [Bool.false_eq_true, if_false, if_pos hlimit, endWith, enter, phaseClocks_gapAfterTransfer hx]
    rfl
  · simp only [if_true, endWith, enter, phaseClocks_gapAfterTransfer hx]
    rfl

end Lane

/-- The other engaged lanes decide, at the end of one, whether the round completes (R56). -/
theorem State.completionCheck_setLane {x : Lane} (hround : s.round = some round) (hx : x.state = .ended) :
    (s.setLane l x).completionCheck =
      if ∀ l', l' ≠ l → (round.lanes[l']).isSome = true → (s.lane l').state = .ended then (s.setLane l x).completeRound round
      else s.setLane l x := by
  have hall : (s.setLane l x).allEnded round = true ↔
      ∀ l', l' ≠ l → (round.lanes[l']).isSome = true → (s.lane l').state = .ended := by
    rw [allEnded_iff]
    refine forall_congr' fun l' => ?_
    by_cases hl : l' = l <;> simp [hl, hx]
  unfold completionCheck
  simp only [setLane_round, hround, hall]

theorem State.lanePulseEnd_eq (s : State) (l : LaneNo) {crossed : Bool}
    (hx : (s.lane l).state = .pulsing (.gapAfterTransfer crossed)) :
    s.lanePulseEnd l =
      if (s.lane l).afterPulse.state = .ended then (s.setLane l (s.lane l).afterPulse).completionCheck
      else s.setLane l (s.lane l).afterPulse := by
  simp [lanePulseEnd, hx]

/-! ## A round start -/

theorem State.roundStartCheck_of_not (h : s.round ≠ none ∨ s.queue = [] ∨ s.gate.observed = .shut) :
    s.roundStartCheck = s := by
  unfold roundStartCheck
  rw [if_neg]
  rw [roundMayStart_iff]
  rintro ⟨hround, hq, hopen⟩
  obtain h | h | h := h
  · exact h hround
  · exact hq h
  · simp [hopen] at h

theorem State.roundStartCheck_of_may (hround : s.round = none) (hq : s.queue ≠ []) (hopen : s.gate.observed = .opened) :
    s.roundStartCheck = s.roundStart := by
  unfold roundStartCheck
  rw [if_pos (roundMayStart_iff.2 ⟨hround, hq, hopen⟩)]

end Sys2Proof.Machine

namespace Sys2Proof.Proofs

open Sys2Proof.Machine

/-- Settles O27: a losing port's standing list and requests are stripped by the two steps of R20, and what the walk posts
stands before SLOT_GONE. -/
theorem removalCascade : Obligations.RemovalCascade := by
  intro s k x losing
  refine ⟨fun q => by simp, ?_, fun q => ?_, by simp, by simp, by simp, by simp, by simp, by simp, by simp, by simp,
    by simp, fun q => by simp⟩
  · rw [State.cascade_queue]
    exact List.filterMap_congr fun r _ => cascadeFate_kept k losing r
  · rw [State.cascade_posted]
    simp only [eventsTo_cascadeFate]
    rfl

/-- Settles O11: the state before the round-start check is that of the three phases of R57, R58 and R59. -/
theorem roundCompletion : Obligations.RoundCompletion := by
  intro s round
  refine ⟨s.completed round, State.completeRound_eq s round, rfl, by simp [State.completed], fun l => by simp [State.completed],
    fun k hk => State.completed_slot_of_not_held s (Round.holds_eq_false_iff.2 hk),
    fun l k x rd hk hunique hx hrd => State.completed_slot_of_lane hk hunique hx hrd, ?_,
    by simp [State.completed], by simp [State.completed], by simp [State.completed], by simp [State.completed],
    by simp [State.completed], fun q => by simp [State.completed]⟩
  rw [State.completed_queue]
  refine List.filterMap_congr fun r _ => ?_
  rw [creditFate_kept, SweepRequest.credited_eq]
  rfl

/-- Settles O12: the lanes post in lane order, each about a slot that no lane before it has touched, and the walk over the
queue posts behind them. -/
theorem roundCompletionPostsInOrder : Obligations.RoundCompletionPostsInOrder := by
  refine ⟨fun _ _ _ _ _ => rfl, fun _ _ _ => rfl, fun _ _ _ _ => rfl, fun s round q hdistinct => ?_⟩
  rw [State.completeRound_posted hdistinct]
  simp only [eventsTo_creditFate]
  rfl

/-- Settles O13: the walk of R61, and the marks and lanes cleared by R62. -/
theorem roundAbort : Obligations.RoundAbort := by
  intro s round
  refine ⟨s.aborted round, State.abortRound_eq s round, rfl, by simp [State.aborted], fun l => by simp [State.aborted],
    fun k => ?_, ?_, fun q => ?_, by simp [State.aborted], by simp [State.aborted], by simp [State.aborted],
    by simp [State.aborted], by simp [State.aborted], fun q => by simp [State.aborted]⟩
  · rw [State.aborted_slot]
    simp only [Round.holds_iff]
  · rw [State.aborted_queue]
    exact List.filterMap_congr fun r _ => abortFate_kept _ r
  · rw [State.aborted, State.idleLanes_events, State.clearRound_events, walkQueue_posted]
    simp only [eventsTo_abortFate]
    rfl

/-- Settles O7: the comparison and the limit decide for the lane, and the other engaged lanes for the round. -/
theorem pulseEndDecides : Obligations.PulseEndDecides := by
  intro s l crossed hr hx
  have hexec : exec (.pulseEnd l) s = .next (s.lanePulseEnd l) := s.whileRunning_running (fun s => s.lanePulseEnd l) hr
  have heq := s.lanePulseEnd_eq l hx
  refine ⟨fun hc hlimit => ?_, fun round hround hend => ?_⟩
  · rw [hexec, heq, Lane.afterPulse_next hx hc hlimit, if_neg (by simp)]
  · rw [Lane.afterPulse_end hx hend, if_pos (by rfl), State.completionCheck_setLane hround rfl] at heq
    rw [hexec, heq]
    refine ⟨fun ⟨l', hl', hengaged, hrunning⟩ => ?_, fun hall => ?_⟩
    · rw [if_neg fun h => hrunning (h l' hl' hengaged)]
      rfl
    · rw [if_pos hall]
      rfl

/-- Settles O10: the round that R51 forms from the order of examination, read field by field. -/
theorem roundStart : Obligations.RoundStart := by
  intro s
  refine ⟨State.roundStartCheck_of_not, fun hround hopen before after oldest hq hport hbefore => ?_⟩
  have hstart := State.roundStartCheck_of_may hround (by simp [hq]) hopen
  dsimp only
  rw [hstart]
  refine ⟨s.newRound, State.roundStart_round s, rfl, State.roundStart_lastLeader s, fun l => ?_, ?_, fun k => ?_,
    fun l hl => ?_, fun l k x hl hx => ?_, by simp, by simp, by simp, by simp, by simp, by simp⟩
  · rw [State.newRound_lanes, State.laneChoice, State.examination_eq hq hport hbefore]
  · rw [State.roundStart_queue]
    refine List.map_congr_left fun r _ => ?_
    simp only [SweepRequest.engage, ← Round.holds_iff, Bool.decide_eq_true]
  · rw [State.roundStart_slot]
    simp only [Round.holds_iff]
  · rw [State.roundStart_lane, State.startedLane_of_none hl]
  · rw [State.roundStart_lane, State.startedLane_of_some hl hx]
    rfl

end Sys2Proof.Proofs
end

section
/-! PROOFS. Key tracking (R102–R115): what a reading does to the key fields, state by state. -/

namespace Sys2Proof.Machine

variable {q : Params} {k : KeyFields} {rd : Reading} {b v : Nat}

theorem KeyFields.base_of_baseline (hb : k.baseline = some b) : k.base = b := by simp [KeyFields.base, hb]

theorem KeyFields.delta_of_baseline (hb : k.baseline = some b) : k.delta v = (b : Int) - v := by
  simp [KeyFields.delta, KeyFields.base_of_baseline hb]

/-- A threshold compared with the delta (R107, R111). -/
theorem KeyFields.le_delta_iff (hb : k.baseline = some b) (n : Nat) : (n : Int) ≤ k.delta v ↔ v + n ≤ b := by
  rw [KeyFields.delta_of_baseline hb]
  omega

theorem takeReading_good (hs : rd.sat = false) (hl : rd.low = false) : takeReading q k rd = goodReading q k rd.value := by
  simp [takeReading, Reading.bad, hs, hl]

theorem takeReading_bad (h : rd.sat = true ∨ rd.low = true) : takeReading q k rd = badReading k rd.value := by
  simp [takeReading, Reading.bad, h]

/-! ## IDLE and ARMING -/

section

variable (hb : k.baseline = some b)

include hb

theorem goodIdle_press (hv : v + q.touch ≤ b) (hd : q.debounce = 1) :
    goodIdle q k v = ({ k with state := .held, confirm := 0, hold := 0, drift := 0 }, some (pressEvent ((b : Int) - v))) := by
  rw [goodIdle, if_pos ((KeyFields.le_delta_iff hb _).2 hv), if_pos hd, KeyFields.delta_of_baseline hb]

theorem goodIdle_arm (hv : v + q.touch ≤ b) (hd : q.debounce ≠ 1) :
    goodIdle q k v = ({ k with state := .arming, confirm := 1, drift := 0 }, none) := by
  rw [goodIdle, if_pos ((KeyFields.le_delta_iff hb _).2 hv), if_neg hd]

theorem goodIdle_rebaseline (hv : b < v + q.touch) (hrev : b + q.touch < v) :
    goodIdle q k v = ({ k with baseline := some v, drift := 0 }, none) := by
  rw [goodIdle, if_neg (by rw [KeyFields.le_delta_iff hb]; omega), if_pos (by rwa [KeyFields.base_of_baseline hb])]

/-- Between the touch threshold and the reverse one a reading counts toward drift (R109). -/
theorem goodIdle_settled (hv : b < v + q.touch) (hrev : v ≤ b + q.touch) :
    goodIdle q k v =
      if q.drift = 0 then (k, none)
      else if k.drift + 1 < q.drift then ({ k with drift := k.drift + 1 }, none)
      else ({ k with baseline := some (driftStep b v), drift := 0 }, none) := by
  rw [goodIdle, if_neg (by rw [KeyFields.le_delta_iff hb]; omega), KeyFields.base_of_baseline hb, if_neg (by omega)]

theorem goodArming_eq :
    goodArming q k v =
      if v + q.touch ≤ b then
        if k.confirm + 1 = q.debounce then
          ({ k with state := .held, confirm := 0, hold := 0 }, some (pressEvent ((b : Int) - v)))
        else ({ k with confirm := k.confirm + 1 }, none)
      else ({ k with state := .idle, confirm := 0, drift := 0 }, none) := by
  rw [goodArming, KeyFields.delta_of_baseline hb]
  simp only [← KeyFields.delta_of_baseline hb, KeyFields.le_delta_iff hb]

/-! ## HELD and LIFTING -/

theorem forceRelease_eq :
    forceRelease k v =
      ({ k with state := .idle, baseline := some v, confirm := 0, hold := 0, drift := 0 },
       some (releaseEvent ((b : Int) - v) true)) := by
  rw [forceRelease, KeyFields.delta_of_baseline hb]

theorem confirmRelease_eq :
    confirmRelease k v =
      ({ k with state := .idle, confirm := 0, hold := 0, drift := 0 }, some (releaseEvent ((b : Int) - v) false)) := by
  rw [confirmRelease, KeyFields.delta_of_baseline hb]

/-- Below the hold limit the release threshold decides in HELD (R111). -/
theorem goodHeld_eq (hhold : q.hold = 0 ∨ k.raisedHold ≠ q.hold) :
    goodHeld q k v =
      if v + q.release ≤ b then ({ k with hold := k.raisedHold }, none)
      else if q.debounce = 1 then confirmRelease k v
      else ({ k with state := .lifting, confirm := 1, hold := k.raisedHold }, none) := by
  rw [goodHeld, if_neg (by tauto)]
  simp only [KeyFields.le_delta_iff hb]

/-- Below the hold limit the release threshold decides in LIFTING (R112). -/
theorem goodLifting_eq (hhold : q.hold = 0 ∨ k.raisedHold ≠ q.hold) :
    goodLifting q k v =
      if v + q.release ≤ b then ({ k with state := .held, confirm := 0, hold := k.raisedHold }, none)
      else if k.confirm + 1 = q.debounce then confirmRelease k v
      else ({ k with confirm := k.confirm + 1, hold := k.raisedHold }, none) := by
  rw [goodLifting, if_neg (by tauto)]
  simp only [KeyFields.le_delta_iff hb]

end

/-! ## A good reading, state by state -/

section

variable (hs : rd.sat = false) (hl : rd.low = false)

include hs hl

theorem takeReading_uncal (h : k.state = .uncal) : takeReading q k rd = goodUncal { k with badRun := 0 } rd.value := by
  simp only [takeReading_good hs hl, goodReading, h]

theorem takeReading_idle (h : k.state = .idle) : takeReading q k rd = goodIdle q { k with badRun := 0 } rd.value := by
  simp only [takeReading_good hs hl, goodReading, h]

theorem takeReading_arming (h : k.state = .arming) : takeReading q k rd = goodArming q { k with badRun := 0 } rd.value := by
  simp only [takeReading_good hs hl, goodReading, h]

theorem takeReading_held (h : k.state = .held) : takeReading q k rd = goodHeld q { k with badRun := 0 } rd.value := by
  simp only [takeReading_good hs hl, goodReading, h]

theorem takeReading_lifting (h : k.state = .lifting) :
    takeReading q k rd = goodLifting q { k with badRun := 0 } rd.value := by
  simp only [takeReading_good hs hl, goodReading, h]

theorem takeReading_fault (h : k.state = .fault) : takeReading q k rd = ({ k with badRun := 0 }, none) := by
  simp only [takeReading_good hs hl, goodReading, h]

end

theorem KeyState.pressed_eq_decide (st : KeyState) : st.pressed = decide (st = .held ∨ st = .lifting) := by
  cases st <;> rfl

end Sys2Proof.Machine

namespace Sys2Proof.Proofs

open Sys2Proof.Machine

/-- Settles O31: the count of the readings summed so far decides. -/
theorem calibrationReading : Obligations.CalibrationReading := by
  intro q k rd hstate hs hl
  rw [takeReading_uncal hs hl hstate]
  refine ⟨fun hcount => ?_, fun hcount => ?_⟩
  · rw [goodUncal, if_pos (by simp [Config.calibrationReadings]; omega)]
  · rw [goodUncal, if_neg (by simp [Config.calibrationReadings]; omega)]
    rfl

/-- Settles O32: the touch threshold and its reverse divide the readings in IDLE, the touch threshold those in ARMING. -/
theorem idleAndArmingReading : Obligations.IdleAndArmingReading := by
  intro q k rd b hb hs hl
  have hb' : ({ k with badRun := 0 } : KeyFields).baseline = some b := hb
  refine ⟨fun hstate hv => ?_, fun hstate hv hrev => ?_, fun hstate hv hrev => ?_, fun hstate hv hconfirm => ?_,
    fun hstate hv hconfirm => ?_, fun hstate hv => ?_⟩
  · rw [takeReading_idle hs hl hstate]
    exact ⟨fun hd => goodIdle_press hb' hv hd, fun hd => goodIdle_arm hb' hv hd⟩
  · rw [takeReading_idle hs hl hstate]
    exact goodIdle_rebaseline hb' hv hrev
  · rw [takeReading_idle hs hl hstate, goodIdle_settled hb' hv hrev]
    refine ⟨fun hd => if_pos hd, fun hd hn => ?_, fun hd hn => ?_⟩
    · rw [if_neg hd, if_pos hn]
    · rw [if_neg hd, if_neg (Nat.not_lt.2 hn)]
      rfl
  · rw [takeReading_arming hs hl hstate, goodArming_eq hb', if_pos hv, if_neg hconfirm]
  · rw [takeReading_arming hs hl hstate, goodArming_eq hb', if_pos hv, if_pos hconfirm]
    rfl
  · rw [takeReading_arming hs hl hstate, goodArming_eq hb', if_neg (Nat.not_le.2 hv)]

/-- Settles O33: the hold limit comes first, then the release threshold, then the debounce. -/
theorem heldAndLiftingReading : Obligations.HeldAndLiftingReading := by
  intro q k rd b hpressed hb hs hl
  have hb' : ({ k with badRun := 0 } : KeyFields).baseline = some b := hb
  refine ⟨fun hq hhold => ?_, fun hhold => ⟨fun hv hstate => ?_, fun hv hstate => ?_, fun hv hstate hd => ?_,
    fun hv hstate hd => ?_, fun hv hstate hd => ?_, fun hv hstate hd => ?_⟩⟩
  · obtain hstate | hstate := hpressed
    · rw [takeReading_held hs hl hstate, goodHeld, if_pos ⟨hq, hhold⟩, forceRelease_eq hb']
      rfl
    · rw [takeReading_lifting hs hl hstate, goodLifting, if_pos ⟨hq, hhold⟩, forceRelease_eq hb']
      rfl
  · rw [takeReading_held hs hl hstate, goodHeld_eq hb' hhold, if_pos hv]
    rfl
  · rw [takeReading_lifting hs hl hstate, goodLifting_eq hb' hhold, if_pos hv]
    rfl
  · rw [takeReading_held hs hl hstate, goodHeld_eq hb' hhold, if_neg (Nat.not_le.2 hv), if_pos hd, confirmRelease_eq hb']
    rfl
  · rw [takeReading_held hs hl hstate, goodHeld_eq hb' hhold, if_neg (Nat.not_le.2 hv), if_neg hd]
    rfl
  · rw [takeReading_lifting hs hl hstate, goodLifting_eq hb' hhold, if_neg (Nat.not_le.2 hv), if_pos hd,
      confirmRelease_eq hb']
    rfl
  · rw [takeReading_lifting hs hl hstate, goodLifting_eq hb' hhold, if_neg (Nat.not_le.2 hv), if_neg hd]
    rfl

/-- Settles O34: FAULT and the bad-run count decide. -/
theorem badReadingsAndFault : Obligations.BadReadingsAndFault := by
  intro q k rd
  refine ⟨fun hbad hstate => ?_, fun hbad hstate => ?_, fun hs hl hstate => takeReading_fault hs hl hstate⟩
  · rw [takeReading_bad hbad, badReading, if_neg hstate]
    refine ⟨fun hrun => ?_, fun hrun => ?_⟩
    · rw [if_pos (by simp [Config.badRunLimit]; omega)]
    · rw [if_neg (by simp [Config.badRunLimit]; omega), KeyState.pressed_eq_decide]
      rfl
  · rw [takeReading_bad hbad, badReading, if_pos hstate]
    rfl

end Sys2Proof.Proofs
end

section
/-! PROOFS. The wire formats (R174, R177, R183, R187–R189, R191, R197): numbers, flag bytes, event records, frames. -/

namespace Sys2Proof.Machine

/-! ## Numbers -/

theorem byteOf_toNat {n : Nat} (h : n < 256) : (byteOf n).toNat = n := by
  simp [byteOf, Nat.mod_eq_of_lt h]

@[simp] theorem byteOf_toNat_self (b : Byte) : byteOf b.toNat = b := by simp [byteOf]

theorem numOf_wordBytes (w : Word) : numOf (w.extractLsb' 8 8) (w.extractLsb' 0 8) = w.toNat := by
  have := w.isLt
  simp only [numOf, BitVec.extractLsb'_toNat, Nat.shiftRight_eq_div_pow]
  omega

/-- A number of two bytes is read as it is written (R191). -/
theorem numOf_numBytes {n : Nat} (h : n < 65536) :
    numOf ((BitVec.ofNat 16 n).extractLsb' 8 8) ((BitVec.ofNat 16 n).extractLsb' 0 8) = n := by
  rw [numOf_wordBytes, BitVec.toNat_ofNat, Nat.mod_eq_of_lt h]

theorem numOf_lt (hi lo : Byte) : numOf hi lo < 65536 := by
  have := hi.isLt
  have := lo.isLt
  simp only [numOf]
  omega

/-- Two bytes are the number they spell (R191). -/
theorem numBytes_numOf (hi lo : Byte) : numBytes (numOf hi lo) = [hi, lo] := by
  have hhi := hi.isLt
  have hlo := lo.isLt
  have hn := numOf_lt hi lo
  simp only [numBytes, wordBytes, List.cons.injEq, and_true]
  constructor <;> refine BitVec.eq_of_toNat_eq ?_ <;>
    simp only [BitVec.extractLsb'_toNat, BitVec.toNat_ofNat, Nat.shiftRight_eq_div_pow, Nat.mod_eq_of_lt hn] <;>
    simp only [numOf] <;> omega

theorem numBytes_eq_iff {n : Nat} (h : n < 65536) {hi lo : Byte} : [hi, lo] = numBytes n ↔ numOf hi lo = n := by
  constructor
  · intro he
    simp only [numBytes, wordBytes, List.cons.injEq, and_true] at he
    rw [he.1, he.2, numOf_numBytes h]
  · rintro rfl
    exact (numBytes_numOf hi lo).symm

/-! ## Flag bytes -/

theorem flagBit_getElem (b : Bool) (n : Nat) {i : Nat} (hi : i < 8) : (flagBit b n)[i] = (b && decide (i = n)) := by
  unfold flagBit
  cases b
  · simp
  · rw [if_pos rfl, ← BitVec.getLsbD_eq_getElem, BitVec.getLsbD_ofNat, Nat.testBit_two_pow]
    simp [hi, eq_comm]

theorem flagBit_lt (b : Bool) {n m : Nat} (hn : n < m) : (flagBit b n).toNat < 2 ^ m := by
  have hlt : 2 ^ n < 2 ^ m := Nat.pow_lt_pow_right (by decide) hn
  unfold flagBit
  split
  · exact (BitVec.toNat_ofNat ..).trans_lt ((Nat.mod_le ..).trans_lt hlt)
  · simp

theorem or_lt {x y : Byte} {m : Nat} (hx : x.toNat < 2 ^ m) (hy : y.toNat < 2 ^ m) : (x ||| y).toNat < 2 ^ m := by
  rw [BitVec.toNat_or]
  exact Nat.or_lt_two_pow hx hy

theorem SweepRequest.isEngaged_eq_decide (r : SweepRequest) : r.isEngaged = decide (r.engaged ≠ []) :=
  Bool.eq_iff_iff.2 (SweepRequest.isEngaged_iff.trans decide_eq_true_iff.symm)

/-- A NOP, a malformed and an incomplete frame give none (R177). -/
theorem readFrame_eq (code tag len : Byte) (rest : List Byte) :
    readFrame (code :: tag :: len :: rest) =
      if code = 0 ∨ 60 < len.toNat ∨ rest.length < len.toNat + 1 then none
      else some { code := code, tag := tag, payload := rest.take len.toNat, crc := rest.getD len.toNat 0 } := by
  have hmax : decide (len.toNat ≤ Config.commandPayloadMax) = decide (len.toNat ≤ 60) := rfl
  simp only [readFrame, hmax]
  by_cases hcode : code = 0
  · simp [hcode]
  · by_cases hlen : 60 < len.toNat
    · simp [hlen, Nat.not_le.2 hlen]
    · by_cases hrest : rest.length < len.toNat + 1
      · simp [hrest, Nat.not_le.2 hrest]
      · simp [hlen, hrest, Nat.not_lt.1 hlen, Nat.not_lt.1 hrest]

end Sys2Proof.Machine

namespace Sys2Proof.Proofs

open Sys2Proof.Machine

/-- Settles O49: numbers by their division by 256, flag bytes bit by bit, the codes by their tables. -/
theorem wireCodes : Obligations.WireCodes := by
  refine ⟨fun n hn => byteOf_toNat hn, fun n hn => ⟨_, _, rfl, numOf_numBytes hn⟩, fun w => ⟨_, _, rfl, numOf_wordBytes w⟩,
    rfl, rfl, rfl, rfl, rfl, rfl, rfl, fun r => ⟨recordFlags r, ?_, ?_⟩, fun r => ⟨attributesByte r, rfl, ?_⟩⟩
  · unfold recordBytes
    cases r.event.slot <;> cases r.event.aux <;> rfl
  · simp [recordFlags, flagBit_getElem]
  · refine ⟨by simp [attributesByte, flagBit_getElem], by simp [attributesByte, flagBit_getElem],
      by simp [attributesByte, flagBit_getElem, SweepRequest.isEngaged_eq_decide], by simp [attributesByte, flagBit_getElem],
      by simp [attributesByte, flagBit_getElem], ?_⟩
    refine or_lt (m := 5) (or_lt (or_lt (or_lt ?_ ?_) ?_) ?_) ?_ <;> exact flagBit_lt _ (by decide)

/-- Settles O60: the layouts, and the two options in the bits of their byte. -/
theorem hostSideLayouts : Obligations.HostSideLayouts := by
  refine ⟨fun f => rfl, fun q => ⟨Params.optionsByte q, rfl, by simp [Params.optionsByte, flagBit_getElem],
    by simp [Params.optionsByte, flagBit_getElem], ?_⟩, fun _ => rfl, rfl, fun _ => rfl, rfl, fun _ => rfl, fun g => ?_,
    fun b => ?_⟩
  · exact or_lt (m := 2) (flagBit_lt _ (by decide)) (flagBit_lt _ (by decide))
  · cases hl : g.openLevel <;> simp [gateBytes, yesNoByte, levelByte, hl]
  · simp [bitsOf, List.range_succ, BitVec.getMsbD_eq_getLsbD]

/-- Settles O43: where the frame is whole, its payload and CRC stand behind its first three bytes. -/
theorem frameReading : Obligations.FrameReading := by
  refine ⟨fun f fill hcode hlen => ?_, fun bs hbs => ?_, fun tag len rest => ?_, fun code tag len rest hlen => ?_,
    fun code tag len rest hrest => ?_⟩
  · have hl : (byteOf f.payload.length).toNat = f.payload.length := byteOf_toNat (by omega)
    simp only [frameBytes, Frame.body, List.cons_append, List.nil_append, readFrame_eq, hl]
    rw [if_neg]
    · simp
    · rintro (h | h | h)
      · exact hcode h
      · omega
      · simp at h
  · match bs, hbs with
    | [], _ => rfl
    | [_], _ => rfl
    | [_, _], _ => rfl
  · rw [readFrame_eq, if_pos (.inl rfl)]
  · rw [readFrame_eq, if_pos (.inr (.inl hlen))]
  · rw [readFrame_eq, if_pos (.inr (.inr hrest))]

end Sys2Proof.Proofs
end

section
/-! PROOFS. The arguments of commands (R191, R198–R208): each reader answers exactly what the host wrote. -/

namespace Sys2Proof.Machine

/-! ## Single bytes -/

/-- A byte below a limit names a number below it (R191). -/
theorem finOfByte_eq_some {n : Nat} (hn : n ≤ 256) (b : Byte) (k : Fin n) :
    (if h : b.toNat < n then some (⟨b.toNat, h⟩ : Fin n) else none) = some k ↔ b = byteOf k.val := by
  constructor
  · intro h
    split at h
    · obtain rfl := Option.some.inj h
      exact (byteOf_toNat_self b).symm
    · cases h
  · rintro rfl
    have hk : (byteOf k.val).toNat = k.val := byteOf_toNat (k.isLt.trans_le hn)
    simp [hk]

theorem slotNo?_eq_some {b : Byte} {k : SlotNo} : slotNo? b = some k ↔ b = byteOf k.val :=
  finOfByte_eq_some (by decide) b k

theorem laneNo?_eq_some {b : Byte} {l : LaneNo} : laneNo? b = some l ↔ b = byteOf l.val :=
  finOfByte_eq_some (by decide) b l

theorem profileNo?_eq_some {b : Byte} {i : ProfileNo} : profileNo? b = some i ↔ b = byteOf i.val :=
  finOfByte_eq_some (by decide) b i

theorem padSet?_eq_some {b : Byte} {pads : PadSet} : padSet? b = some pads ↔ b = pads.setWidth 8 := by
  have hpads : pads.toNat < 32 := pads.isLt
  have hpow : 2 ^ Config.padsPerLane = 32 := rfl
  unfold padSet?
  constructor
  · intro h
    split at h
    · rename_i hb
      obtain rfl := Option.some.inj h
      refine BitVec.eq_of_toNat_eq ?_
      simp only [BitVec.toNat_setWidth, hpow]
      omega
    · cases h
  · rintro rfl
    have hlt : (pads.setWidth 8).toNat < 32 := by
      simp only [BitVec.toNat_setWidth]
      omega
    rw [if_pos hlt, BitVec.setWidth_setWidth_of_le _ (by decide), BitVec.setWidth_eq]

theorem yesNo?_eq_some {b : Byte} {v : Bool} : yesNo? b = some v ↔ b = yesNoByte v := by
  unfold yesNo?
  constructor
  · intro h
    split at h
    · rename_i hb
      exact Option.some.inj h ▸ hb
    · split at h
      · rename_i hb
        exact Option.some.inj h ▸ hb
      · cases h
  · rintro rfl
    cases v <;> rfl

theorem level?_eq_some {b : Byte} {lv : Level} : level? b = some lv ↔ b = levelByte lv := by
  unfold level?
  constructor
  · intro h
    split at h
    · rename_i hb
      exact Option.some.inj h ▸ hb
    · split at h
      · rename_i hb
        exact Option.some.inj h ▸ hb
      · cases h
  · rintro rfl
    cases lv <;> rfl

theorem options?_eq_some {b : Byte} {shared stream : Bool} :
    options? b = some (shared, stream) ↔ b = flagBit shared 0 ||| flagBit stream 1 := by
  unfold options?
  constructor
  · intro h
    split at h
    · rename_i hb
      obtain ⟨rfl, rfl⟩ := Prod.mk.inj (Option.some.inj h)
      refine BitVec.eq_of_getLsbD_eq fun i hi => ?_
      rw [BitVec.getLsbD_or, BitVec.getLsbD_eq_getElem (x := flagBit _ 0) hi, BitVec.getLsbD_eq_getElem (x := flagBit _ 1) hi,
        flagBit_getElem, flagBit_getElem]
      match i with
      | 0 => simp
      | 1 => simp
      | i + 2 =>
        have hpow : 4 ≤ 2 ^ (i + 2) := Nat.pow_le_pow_right (n := 2) (i := 2) (by decide) (by omega)
        rw [BitVec.getLsbD, Nat.testBit_lt_two_pow (hb.trans_le hpow)]
        simp
    · cases h
  · rintro rfl
    have hlt : (flagBit shared 0 ||| flagBit stream 1).toNat < 4 :=
      or_lt (m := 2) (flagBit_lt _ (by decide)) (flagBit_lt _ (by decide))
    rw [if_pos hlt]
    simp [flagBit_getElem]

/-! ## Parameters -/

theorem paramsBytes_eq (q : Params) :
    paramsBytes q =
      [byteOf q.lane.val, q.pads.setWidth 8, byteOf q.profile.val,
       (BitVec.ofNat 16 q.limit).extractLsb' 8 8, (BitVec.ofNat 16 q.limit).extractLsb' 0 8,
       (BitVec.ofNat 16 q.touch).extractLsb' 8 8, (BitVec.ofNat 16 q.touch).extractLsb' 0 8,
       (BitVec.ofNat 16 q.release).extractLsb' 8 8, (BitVec.ofNat 16 q.release).extractLsb' 0 8,
       byteOf q.debounce, byteOf q.drift, byteOf q.hold, flagBit q.shared 0 ||| flagBit q.stream 1] := rfl

theorem paramsWellFormed_iff (q : Params) : q.wellFormed = true ↔
    q.pads ≠ 0 ∧ 64 ≤ q.limit ∧ q.limit ≤ 30000 ∧ 1 ≤ q.touch ∧ q.touch ≤ 4000 ∧ 1 ≤ q.release ∧ q.release ≤ q.touch ∧
    1 ≤ q.debounce ∧ q.debounce ≤ 8 ∧ q.drift ≤ 255 ∧ q.hold ≤ 255 := by
  simp only [Params.wellFormed, Bool.and_eq_true, decide_eq_true_eq, bne_iff_ne, ne_eq]
  tauto

theorem paramsArg_paramsBytes {q : Params} (hq : q.wellFormed = true) : paramsArg (paramsBytes q) = some q := by
  obtain ⟨-, -, hlimit, -, htouch, -, hrelease, -, hdebounce, hdrift, hhold⟩ := (paramsWellFormed_iff q).1 hq
  have hnum : ∀ n ≤ 30000, numOf ((BitVec.ofNat 16 n).extractLsb' 8 8) ((BitVec.ofNat 16 n).extractLsb' 0 8) = n :=
    fun n hn => numOf_numBytes (by omega)
  have hbyte : ∀ n ≤ 255, (byteOf n).toNat = n := fun n hn => byteOf_toNat (by omega)
  simp only [paramsBytes_eq, paramsArg, laneNo?_eq_some.2 rfl, padSet?_eq_some.2 rfl, profileNo?_eq_some.2 rfl,
    options?_eq_some.2 rfl, hnum q.limit hlimit, hnum q.touch (by omega), hnum q.release (by omega),
    hbyte q.debounce (by omega), hbyte q.drift hdrift, hbyte q.hold hhold]
  exact if_pos hq

theorem paramsArg_eq_some {bs : List Byte} {q : Params} :
    paramsArg bs = some q ↔ q.wellFormed = true ∧ bs = paramsBytes q := by
  refine ⟨fun h => ⟨paramsArg_wellFormed h, ?_⟩, fun ⟨hq, hbs⟩ => hbs ▸ paramsArg_paramsBytes hq⟩
  unfold paramsArg at h
  split at h
  · rename_i ln pd pf limHi limLo toHi toLo reHi reLo deb drift hold opts
    split at h
    · rename_i lane pads profile shared stream hln hpd hpf hopts
      dsimp only at h
      split at h
      · obtain rfl := Option.some.inj h
        simp only [paramsBytes, laneNo?_eq_some.1 hln, padSet?_eq_some.1 hpd, profileNo?_eq_some.1 hpf,
          options?_eq_some.1 hopts, numBytes_numOf, byteOf_toNat_self, Params.optionsByte, List.cons_append,
          List.nil_append]
      · cases h
    · cases h
  · cases h

theorem slotChoice?_eq_some {b : Byte} {c : SlotChoice} : slotChoice? b = some c ↔ b = choiceByte c := by
  unfold slotChoice?
  split
  · rename_i hb
    subst hb
    cases c with
    | any => simp [choiceByte]
    | named k =>
      have hk : byteOf k.val ≠ 0xFF := fun h => by
        have hlt : k.val < 32 := k.isLt
        have := congrArg BitVec.toNat h
        rw [byteOf_toNat (by omega)] at this
        exact absurd this (by simp; omega)
      simpa [choiceByte] using hk.symm
  · rename_i hb
    cases c with
    | any => simpa [choiceByte] using hb
    | named k => simp [choiceByte, slotNo?_eq_some]

/-! ## Lists of slots -/

theorem slotNos?_eq_some {bs : List Byte} {ks : List SlotNo} :
    slotNos? bs = some ks ↔ bs = ks.map fun k => byteOf k.val := by
  induction bs generalizing ks with
  | nil => cases ks <;> simp [slotNos?]
  | cons b bs ih =>
    unfold slotNos?
    cases ks with
    | nil => split <;> simp
    | cons k ks =>
      rw [List.map_cons, List.cons.injEq, ← slotNo?_eq_some, ← ih]
      cases slotNo? b <;> cases slotNos? bs <;> simp

theorem slotListWellFormed_iff (ks : List SlotNo) : slotListWellFormed ks = true ↔ ks.length ≤ 32 ∧ ks.Nodup := by
  unfold slotListWellFormed
  rw [Bool.and_eq_true, decide_eq_true_iff, decide_eq_true_iff]
  rfl

theorem slotListArg_eq_some {bs : List Byte} {ks : List SlotNo} :
    slotListArg bs = some ks ↔ slotListWellFormed ks = true ∧ bs = slotListBytes ks := by
  refine ⟨fun h => ⟨slotListArg_wellFormed h, ?_⟩, ?_⟩
  · unfold slotListArg at h
    split at h
    · rename_i n rest
      split at h
      · rename_i hlen
        split at h
        · rename_i ks' hks'
          split at h
          · obtain rfl := Option.some.inj h
            rw [slotNos?_eq_some] at hks'
            rw [slotListBytes, ← hks']
            have hlen' : rest.length = ks'.length := by simp [hks']
            rw [← hlen', hlen, byteOf_toNat_self]
          · cases h
        · cases h
      · cases h
    · cases h
  · rintro ⟨hks, rfl⟩
    have hlen : (byteOf ks.length).toNat = ks.length := byteOf_toNat (by
      have := ((slotListWellFormed_iff ks).1 hks).1
      omega)
    simp only [slotListBytes, slotListArg, List.length_map, hlen, if_true, slotNos?_eq_some.2 rfl, if_pos hks]

/-! ## SWEEP -/

theorem sweepArg_cons (n : Byte) (rest : List Byte) :
    sweepArg (n :: rest) =
      if n = 0xFF then (if rest.isEmpty then some .standing else none)
      else if n = 0 then none
      else (slotListArg (n :: rest)).map .explicit := rfl

theorem sweepArg_standing {bs : List Byte} : sweepArg bs = some .standing ↔ bs = sweepBytes .standing := by
  cases bs with
  | nil => simp [sweepArg, sweepBytes]
  | cons n rest =>
    rw [sweepArg_cons]
    split
    · subst n
      cases rest <;> simp [sweepBytes]
    · rename_i hn
      have hne : n :: rest ≠ sweepBytes .standing := fun h => hn (List.cons.inj h).1
      split
      · simpa using hne
      · cases slotListArg (n :: rest) <;> simpa using hne

theorem sweepArg_explicit {bs : List Byte} {ks : List SlotNo} :
    sweepArg bs = some (.explicit ks) ↔ ks ≠ [] ∧ slotListWellFormed ks = true ∧ bs = sweepBytes (.explicit ks) := by
  have hlist := slotListArg_eq_some (bs := bs) (ks := ks)
  rw [sweepBytes]
  cases bs with
  | nil => simp [sweepArg, slotListBytes]
  | cons n rest =>
    have hcount (hks : slotListWellFormed ks = true) (hbs : n :: rest = slotListBytes ks) :
        n.toNat = ks.length ∧ ks.length ≤ 32 := by
      have hle := ((slotListWellFormed_iff ks).1 hks).1
      rw [(List.cons.inj hbs).1]
      exact ⟨byteOf_toNat (by omega), hle⟩
    rw [sweepArg_cons]
    by_cases hstanding : n = 0xFF
    · rw [if_pos hstanding]
      refine ⟨fun h => ?_, fun ⟨_, hks, hbs⟩ => ?_⟩
      · split at h <;> cases h
      · obtain ⟨hn, hle⟩ := hcount hks hbs
        rw [hstanding] at hn
        exact absurd hn (by simp; omega)
    · rw [if_neg hstanding]
      by_cases hzero : n = 0
      · rw [if_pos hzero]
        refine ⟨fun h => (Option.some_ne_none _ h.symm).elim, fun ⟨hne, hks, hbs⟩ => ?_⟩
        have hn := (hcount hks hbs).1
        rw [hzero] at hn
        exact absurd (List.length_eq_zero_iff.1 hn.symm) hne
      · rw [if_neg hzero, ← hlist, Option.map_eq_some_iff]
        refine ⟨fun ⟨ks', hks', he⟩ => ?_, fun ⟨_, h⟩ => ⟨ks, h, rfl⟩⟩
        injection he with he
        subst he
        refine ⟨fun hnil => hzero (BitVec.eq_of_toNat_eq ?_), hks'⟩
        obtain ⟨hwf, hbs⟩ := hlist.1 hks'
        rw [(hcount hwf hbs).1, hnil]
        rfl

/-! ## The other readers -/

theorem slotArg_eq_some {bs : List Byte} {k : SlotNo} : slotArg bs = some k ↔ bs = [byteOf k.val] := by
  match bs with
  | [] => simp [slotArg]
  | [b] => simp [slotArg, slotNo?_eq_some]
  | _ :: _ :: _ => simp [slotArg]

theorem defineArg_eq_some {bs : List Byte} {c : SlotChoice} {q : Params} :
    defineArg bs = some (c, q) ↔ q.wellFormed = true ∧ bs = choiceByte c :: paramsBytes q := by
  cases bs with
  | nil => simp [defineArg]
  | cons b rest =>
    rw [List.cons.injEq, ← slotChoice?_eq_some, and_left_comm, ← paramsArg_eq_some]
    simp only [defineArg]
    cases slotChoice? b <;> cases paramsArg rest <;> simp

theorem modifyArg_eq_some {bs : List Byte} {k : SlotNo} {q : Params} :
    modifyArg bs = some (k, q) ↔ q.wellFormed = true ∧ bs = byteOf k.val :: paramsBytes q := by
  cases bs with
  | nil => simp [modifyArg]
  | cons b rest =>
    rw [List.cons.injEq, ← slotNo?_eq_some, and_left_comm, ← paramsArg_eq_some]
    simp only [modifyArg]
    cases slotNo? b <;> cases paramsArg rest <;> simp

/-- A byte is the number it spells, for the numbers that one byte holds (R191). -/
theorem toNat_eq_iff {b : Byte} {n : Nat} (hn : n < 256) : b.toNat = n ↔ b = byteOf n :=
  ⟨fun h => h ▸ (byteOf_toNat_self b).symm, fun h => h ▸ byteOf_toNat hn⟩

theorem setProfileArg_eq_some {bs : List Byte} {i : ProfileNo} {pf : Profile} :
    setProfileArg bs = some (i, pf) ↔
      (lengthWellFormed pf.charge = true ∧ lengthWellFormed pf.transfer = true) ∧
      bs = [byteOf i.val, byteOf pf.charge, byteOf pf.transfer] := by
  refine ⟨fun h => ⟨setProfileArg_wellFormed h, ?_⟩, fun ⟨⟨hc, ht⟩, hbs⟩ => ?_⟩
  · unfold setProfileArg at h
    split at h
    · split at h
      · rename_i i' hi
        split at h
        · obtain ⟨rfl, rfl⟩ := Prod.mk.inj (Option.some.inj h)
          simp [profileNo?_eq_some.1 hi]
        · cases h
      · cases h
    · cases h
  · have hc64 := lengthWellFormed_iff.1 hc
    have ht64 := lengthWellFormed_iff.1 ht
    simp only [hbs, setProfileArg, profileNo?_eq_some.2 rfl, byteOf_toNat (show pf.charge < 256 by omega),
      byteOf_toNat (show pf.transfer < 256 by omega), hc, ht, Bool.and_self, if_true]

theorem cancelArg_eq_some {bs : List Byte} {id : Nat} :
    cancelArg bs = some id ↔ 1 ≤ id ∧ id ≤ 255 ∧ bs = [byteOf id] := by
  match bs with
  | [] => simp [cancelArg]
  | _ :: _ :: _ => simp [cancelArg]
  | [b] =>
    refine ⟨fun h => ?_, fun ⟨hpos, hle, hb⟩ => ?_⟩
    · simp only [cancelArg] at h
      split at h
      · cases h
      · rename_i hb
        obtain rfl := Option.some.inj h
        have hne : b.toNat ≠ 0 := fun h0 => hb (BitVec.eq_of_toNat_eq h0)
        exact ⟨by omega, by omega, by rw [byteOf_toNat_self]⟩
    · have hn := (toNat_eq_iff (by omega)).2 (List.cons.inj hb).1
      simp only [cancelArg]
      rw [if_neg, hn]
      rintro rfl
      simp at hn
      omega

theorem periodWellFormed_iff (n : Nat) : periodWellFormed n = true ↔ 5 ≤ n ∧ n ≤ 50000 := by
  simp [periodWellFormed]

theorem periodArg_eq_some {bs : List Byte} {n : Nat} :
    periodArg bs = some n ↔ periodWellFormed n = true ∧ ∃ a, bs = a :: numBytes n := by
  refine ⟨fun h => ⟨periodArg_wellFormed h, ?_⟩, ?_⟩
  · unfold periodArg at h
    split at h
    · rename_i a hi lo
      split at h
      · exact ⟨a, by rw [← Option.some.inj h, numBytes_numOf]⟩
      · cases h
    · cases h
  · rintro ⟨hn, a, rfl⟩
    have hrange := (periodWellFormed_iff n).1 hn
    simp only [numBytes, wordBytes, periodArg, numOf_numBytes (show n < 65536 by omega), if_pos hn]

theorem gateWellFormed_iff (g : GateSettings) : g.wellFormed = true ↔ 1 ≤ g.abortLimit ∧ g.abortLimit ≤ 8 := by
  simp [GateSettings.wellFormed]

theorem gateArg_eq_some {bs : List Byte} {g : GateSettings} :
    gateArg bs = some g ↔ g.wellFormed = true ∧ bs = gateBytes g := by
  refine ⟨fun h => ⟨gateArg_wellFormed h, ?_⟩, fun ⟨hg, hbs⟩ => ?_⟩
  · unfold gateArg at h
    split at h
    · split at h
      · rename_i enabled lv he hl
        dsimp only at h
        split at h
        · obtain rfl := Option.some.inj h
          simp [gateBytes, yesNo?_eq_some.1 he, level?_eq_some.1 hl]
        · cases h
      · cases h
    · cases h
  · have hrange := (gateWellFormed_iff g).1 hg
    simp only [hbs, gateBytes, gateArg, yesNo?_eq_some.2 rfl, level?_eq_some.2 rfl,
      byteOf_toNat (show g.abortLimit < 256 by omega), if_pos hg]

theorem fetchCountWellFormed_iff (n : Nat) : fetchCountWellFormed n = true ↔ 1 ≤ n ∧ n ≤ 8 := by
  unfold fetchCountWellFormed
  rw [Bool.and_eq_true, decide_eq_true_iff, decide_eq_true_iff]
  rfl

theorem fetchArg_eq_some {bs : List Byte} {n : Nat} :
    fetchArg bs = some n ↔ fetchCountWellFormed n = true ∧ bs = [byteOf n] := by
  refine ⟨fun h => ⟨fetchArg_wellFormed h, ?_⟩, fun ⟨hn, hbs⟩ => ?_⟩
  · unfold fetchArg at h
    split at h
    · split at h
      · rw [← Option.some.inj h, byteOf_toNat_self]
      · cases h
    · cases h
  · have hrange := (fetchCountWellFormed_iff n).1 hn
    simp only [hbs, fetchArg, byteOf_toNat (show n < 256 by omega), if_pos hn]

theorem append_toNat (hi lo : Byte) : (hi ++ lo : Word).toNat = numOf hi lo := by
  rw [BitVec.toNat_append, ← Nat.shiftLeft_add_eq_or_of_lt lo.isLt, Nat.shiftLeft_eq]
  rfl

theorem wordBytes_eq_numBytes (w : Word) : wordBytes w = numBytes w.toNat := by simp [numBytes]

theorem ackArg_eq_some {bs : List Byte} {seq : Word} : ackArg bs = some seq ↔ bs = wordBytes seq := by
  match bs with
  | [] => simp [ackArg, wordBytes]
  | [_] => simp [ackArg, wordBytes]
  | _ :: _ :: _ :: _ => simp [ackArg, wordBytes]
  | [hi, lo] =>
    rw [wordBytes_eq_numBytes, numBytes_eq_iff seq.isLt, ← append_toNat]
    exact ⟨fun h => congrArg BitVec.toNat (Option.some.inj h), fun h => congrArg some (BitVec.eq_of_toNat_eq h)⟩

end Sys2Proof.Machine

namespace Sys2Proof.Proofs

open Sys2Proof.Machine

/-- Settles O50: reader by reader. -/
theorem argumentsReadExactly : Obligations.ArgumentsReadExactly :=
  ⟨paramsWellFormed_iff, fun _ => lengthWellFormed_iff, slotListWellFormed_iff, periodWellFormed_iff, gateWellFormed_iff,
    fetchCountWellFormed_iff, fun _ _ => slotArg_eq_some, fun _ _ _ => defineArg_eq_some, fun _ _ _ => modifyArg_eq_some,
    fun _ _ _ => setProfileArg_eq_some, fun _ _ => slotListArg_eq_some, fun _ => sweepArg_standing,
    fun _ _ => sweepArg_explicit, fun _ _ => cancelArg_eq_some, fun _ _ => periodArg_eq_some, fun _ _ => gateArg_eq_some,
    fun _ _ => fetchArg_eq_some, fun _ _ => ackArg_eq_some⟩

end Sys2Proof.Proofs
end

section
/-! PROOFS. The execution of commands (R182): from a frame in execution to the answer of the command's own checks, and the
slot commands (R9–R24, R82, R117). -/

namespace Sys2Proof.Machine

variable {s s' : State} {p q : Port} {f : Frame} {code : Byte} {act : State → Frame → Answer} {st : Status}
  {payload : List Byte} {k : SlotNo} {r : SlotRecord}

/-! ## A command in execution -/

theorem hasCode_iff : hasCode code f = true ↔ f.code = code := by simp [hasCode]

theorem State.Executes.runs (h : s.Executes p f code) :
    runCommand (hasCode code) false act p s = .next (s.respondAnswer p f.tag (act s f)) := by
  rw [runCommand_taken h.running h.taken (hasCode_iff.2 h.code_eq)]
  simp [State.execute, h.crc]

/-- Checks 1 to 3 pass, whichever row executes the frame. -/
theorem State.ExecutesOpen.runs_row (h : s.ExecutesOpen p f code) {mine : Frame → Bool} (hm : mine f = true) :
    runCommand mine true act p s = .next (s.respondAnswer p f.tag (act s f)) := by
  rw [runCommand_taken h.running h.taken hm]
  simp [State.execute, h.crc, h.isOpen]

theorem State.ExecutesOpen.runs (h : s.ExecutesOpen p f code) :
    runCommand (hasCode code) true act p s = .next (s.respondAnswer p f.tag (act s f)) :=
  h.runs_row (hasCode_iff.2 h.code_eq)

/-- A command whose own checks fail answers with the failing status alone. -/
theorem State.ExecutesOpen.refuses (h : s.ExecutesOpen p f code) (ha : act s f = .refuse st) :
    runCommand (hasCode code) true act p s = .next (s.respond p f.tag st []) := by
  rw [h.runs, ha]
  rfl

theorem State.ExecutesOpen.accepts (h : s.ExecutesOpen p f code) (ha : act s f = .accept s' payload) :
    runCommand (hasCode code) true act p s = .next (s'.respond p f.tag .ok payload) := by
  rw [h.runs, ha]
  rfl

/-! ## Commands that name one slot -/

section

variable {one : SlotNo → SlotRecord → Answer}

theorem withSlot_badArg (ha : slotArg f.payload = none) : withSlot s f one = .refuse .badArg := by
  simp only [withSlot, ha]

theorem withSlot_notFound (ha : slotArg f.payload = some k) (hk : s.slot k = none) : withSlot s f one = .refuse .notFound := by
  simp only [withSlot, ha, hk]

theorem withSlot_defined (ha : slotArg f.payload = some k) (hk : s.slot k = some r) : withSlot s f one = one k r := by
  simp only [withSlot, ha, hk]

end

theorem deleteAction_eq (ha : slotArg f.payload = some k) (hk : s.slot k = some r) :
    deleteAction p s f =
      if r.owner ≠ p then .refuse .denied
      else if r.inFlight then .refuse .inFlight
      else .accept ((s.cascade k r fun _ => true).setSlot k none) [] := withSlot_defined ha hk

theorem subscribeAction_eq (ha : slotArg f.payload = some k) (hk : s.slot k = some r) :
    subscribeAction p s f =
      if r.subs.get p then .accept s []
      else if r.params.shared then .accept (s.setSlot k (some { r with subs := r.subs.set p true })) []
      else .refuse .denied := withSlot_defined ha hk

theorem unsubscribeAction_eq (ha : slotArg f.payload = some k) (hk : s.slot k = some r) :
    unsubscribeAction p s f =
      if r.owner = p then .refuse .denied
      else if !r.subs.get p then .accept s []
      else if r.inFlight then .refuse .inFlight
      else
        .accept ((s.setSlot k (some { r with subs := r.subs.set p false })).cascade k r fun x => decide (x = p)) [] :=
  withSlot_defined ha hk

theorem recalibrateAction_eq (ha : slotArg f.payload = some k) (hk : s.slot k = some r) :
    recalibrateAction p s f =
      if r.subs.get p then
        .accept ((s.postForcedRelease k r).setSlot k (some { r with key := KeyFields.initial })) []
      else .refuse .denied := withSlot_defined ha hk

/-! ## The forced RELEASE -/

theorem State.postForcedRelease_of_not_pressed (s : State) (k : SlotNo) (hheld : r.key.state ≠ .held)
    (hlifting : r.key.state ≠ .lifting) : s.postForcedRelease k r = s := by
  simp [postForcedRelease, SlotRecord.forcedRelease, KeyState.pressed_eq_decide, hheld, hlifting]

/-- A pressed key is released by force, with the baseline minus the last reading (R14, R117). -/
theorem State.postForcedRelease_of_pressed (s : State) (k : SlotNo) {b : Nat} {l : LastReading}
    (hstate : r.key.state = .held ∨ r.key.state = .lifting) (hb : r.key.baseline = some b) (hl : r.last = some l) :
    s.postForcedRelease k r = s.postSubs r.subs (keyEvent k .release ((b : Int) - l.reading.value) true false) := by
  simp [postForcedRelease, SlotRecord.forcedRelease, KeyState.pressed_eq_decide, hstate, KeyFields.delta_of_baseline hb, hl]

/-! ## DEFINE -/

theorem State.lowestFree_eq_none (h : ∀ k, s.slot k ≠ none) : s.lowestFree = none := by
  simpa [State.lowestFree, Option.isSome_iff_ne_none] using h

/-- The lowest-numbered FREE record is the one below which none is FREE (R10). -/
theorem State.lowestFree_eq_some (hk : s.slot k = none) (hlow : ∀ k' < k, s.slot k' ≠ none) : s.lowestFree = some k := by
  rw [State.lowestFree, List.find?_eq_some_iff_getElem]
  refine ⟨by simp [hk], k.val, by simp, by simp, fun j hj => ?_⟩
  have := hlow ⟨j, hj.trans k.isLt⟩ hj
  simpa [Option.isSome_iff_ne_none] using this

theorem onlySub_eq (p : Port) : onlySub p = { a := decide (p = .a), b := decide (p = .b) } := by cases p <;> rfl

/-! ## MODIFY -/

theorem modifyAction_eq {q : Params} (ha : modifyArg f.payload = some (k, q)) (hk : s.slot k = some r) :
    modifyAction p s f =
      if r.owner ≠ p then .refuse .denied
      else if r.inFlight then .refuse .inFlight
      else .accept (s.applyModify k r q) [classByte (classify r.params q)] := by
  simp only [modifyAction, ha, hk]

theorem State.setSlot_self (hk : s.slot k = some r) : s.setSlot k (some r) = s := by
  have hslots : s.slots.set k.val (some r) k.isLt = s.slots := by
    rw [← hk]
    exact Vector.set_getElem_self k.isLt
  rw [State.setSlot, hslots]

theorem SlotRecord.unshares_iff {new : Params} : r.unshares new = true ↔
    r.params.shared = true ∧ new.shared = false ∧ r.subs.get r.owner.other = true := by
  simp [SlotRecord.unshares, and_assoc]

/-- The record and the state before it is written decide what a MODIFY by the owner comes to (R16). -/
theorem State.applyModify_of {new : Params} (ho : r.owner = p) {u : State} (hu : s.modifyRelease k r new = u)
    {r' : SlotRecord} (hr' : modifiedRecord r new = r') :
    s.applyModify k r new =
      if r.params.shared = true ∧ new.shared = false ∧ r.subs.get p.other = true then
        (u.setSlot k (some { r' with subs := { a := decide (p = .a), b := decide (p = .b) } })).cascade k r
          fun x => decide (x = p.other)
      else u.setSlot k (some r') := by
  have hiff := r.unshares_iff (new := new)
  rw [ho] at hiff
  rw [State.applyModify_eq, hu, SlotRecord.modifiedTo, hr', ho]
  by_cases hs : r.unshares new = true
  · rw [if_pos hs, if_pos hs, if_pos (hiff.1 hs), onlySub_eq]
  · rw [if_neg hs, if_neg hs, if_neg (mt hiff.2 hs)]

theorem State.applyModify_noChange (hk : s.slot k = some r) : s.applyModify k r r.params = s := by
  have hclass : classify r.params r.params = .noChange := classify_eq_noChange.2 rfl
  have hu : r.unshares r.params = false := by cases hs : r.params.shared <;> simp [SlotRecord.unshares, hs]
  simp only [State.applyModify_eq, SlotRecord.modifiedTo, hu, State.modifyRelease, modifiedRecord, hclass,
    Bool.false_eq_true, if_false, reduceCtorEq]
  exact State.setSlot_self hk

/-- Lane, pads, profile and limit make the class (R13). -/
def Measures (old new : Params) : Prop :=
  new.lane ≠ old.lane ∨ new.pads ≠ old.pads ∨ new.profile ≠ old.profile ∨ new.limit ≠ old.limit

theorem classify_detection {old new : Params} (hne : new ≠ old) (hm : ¬ Measures old new) :
    classify old new = .detection := by
  simp only [Measures, not_or, not_not] at hm
  obtain ⟨hlane, hpads, hprofile, hlimit⟩ := hm
  rw [classify, if_neg (Ne.symm hne), if_pos ⟨hlane.symm, hpads.symm, hprofile.symm, hlimit.symm⟩]

theorem classify_measurement {old new : Params} (hm : Measures old new) : classify old new = .measurement := by
  have hne : old ≠ new := by
    rintro rfl
    simp [Measures] at hm
  rw [classify, if_neg hne, if_neg]
  rintro ⟨hlane, hpads, hprofile, hlimit⟩
  simp [Measures, hlane, hpads, hprofile, hlimit] at hm

/-! ## SET_PROFILE -/

theorem State.profileNamedBy_iff {i : ProfileNo} :
    s.profileNamedBy p i = true ↔ ∃ k r, s.slot k = some r ∧ r.owner = p ∧ r.params.profile = i := by
  simp only [profileNamedBy, List.any_eq_true, List.mem_finRange, true_and]
  refine exists_congr fun k => ?_
  cases s.slot k <;> simp

end Sys2Proof.Machine

namespace Sys2Proof.Proofs

open Sys2Proof.Machine

/-- Settles O23: the slot choice decides, and then whether the record is FREE. -/
theorem defineCommand : Obligations.DefineCommand := by
  intro s p f h
  have hrecord (q : Params) : newRecord p q =
      { owner := p, params := q, subs := { a := decide (p = .a), b := decide (p = .b) }, key := KeyFields.initial
        last := none, inFlight := false } := by rw [newRecord, onlySub_eq]
  refine ⟨fun ha => h.refuses (act := defineAction p) ?_, fun k q ha => ⟨fun hk => h.refuses (act := defineAction p) ?_,
    fun hk => ?_⟩, fun q ha => ⟨fun hall => h.refuses (act := defineAction p) ?_, fun k hk hlow => ?_⟩⟩
  · simp only [defineAction, ha]
  · simp only [defineAction, ha, if_pos (Option.isSome_iff_ne_none.2 hk)]
  · refine h.accepts (act := defineAction p) ?_
    simp only [defineAction, ha, hk, hrecord]
    rfl
  · simp only [defineAction, ha, State.lowestFree_eq_none hall]
  · refine h.accepts (act := defineAction p) ?_
    simp only [defineAction, ha, State.lowestFree_eq_some hk hlow, hrecord]
    rfl

/-- Settles O24: the class gives the record that is written and what is posted before it. -/
theorem modifyCommand : Obligations.ModifyCommand := by
  intro s p f h
  refine ⟨fun ha => h.refuses (act := modifyAction p) ?_, fun k q ha =>
    ⟨fun hk => h.refuses (act := modifyAction p) ?_, fun r hk => ⟨fun ho => h.refuses (act := modifyAction p) ?_,
      fun ho hf => h.refuses (act := modifyAction p) ?_⟩⟩, fun k q r ha hk ho hf => ?_⟩
  · simp only [modifyAction, ha]
  · simp only [modifyAction, ha, hk]
  · rw [modifyAction_eq ha hk, if_pos ho]
  · rw [modifyAction_eq ha hk, if_neg (not_not.2 ho), if_pos hf]
  · have hexec : exec (.modify p) s = .next ((s.applyModify k r q).respond p f.tag .ok [classByte (classify r.params q)]) :=
      h.accepts (act := modifyAction p) (by rw [modifyAction_eq ha hk, if_neg (not_not.2 ho), if_neg (by simp [hf])])
    rw [hexec]
    refine ⟨fun hq => ?_, fun hq hm => ?_, fun hm => ⟨fun hheld hlifting => ?_, fun b l hstate hb hl => ?_⟩⟩
    · rw [hq, State.applyModify_noChange hk, classify_eq_noChange.2 rfl]
      rfl
    · have hclass := classify_detection hq hm
      rw [State.applyModify_of ho (if_neg (by simp [hclass])) (by simp only [modifiedRecord, hclass, detectionAdjust_eq]; rfl),
        hclass]
      rfl
    · have hclass := classify_measurement hm
      rw [State.applyModify_of ho
        ((if_pos hclass).trans (State.postForcedRelease_of_not_pressed s k hheld hlifting))
        (by simp only [modifiedRecord, hclass]; rfl), hclass]
      rfl
    · have hclass := classify_measurement hm
      rw [State.applyModify_of ho
        ((if_pos hclass).trans (State.postForcedRelease_of_pressed s k hstate hb hl))
        (by simp only [modifiedRecord, hclass]; rfl), hclass]
      rfl

/-- Settles O25: check by check. -/
theorem deleteCommand : Obligations.DeleteCommand := by
  intro s p f h
  refine ⟨fun ha => h.refuses (act := deleteAction p) (withSlot_badArg ha), fun k ha =>
    ⟨fun hk => h.refuses (act := deleteAction p) (withSlot_notFound ha hk), fun r hk => ⟨fun ho => ?_, fun ho hf => ?_,
      fun ho hf => ?_⟩⟩⟩
  · exact h.refuses (act := deleteAction p) (by rw [deleteAction_eq ha hk, if_pos ho])
  · exact h.refuses (act := deleteAction p) (by rw [deleteAction_eq ha hk, if_neg (not_not.2 ho), if_pos hf])
  · exact h.accepts (act := deleteAction p) (by rw [deleteAction_eq ha hk, if_neg (not_not.2 ho), if_neg (by simp [hf])])

/-- Settles O26: the subscriber set and the owner decide. -/
theorem subscriptionCommands : Obligations.SubscriptionCommands := by
  intro s p f
  refine ⟨fun h => ⟨fun ha => h.refuses (act := subscribeAction p) (withSlot_badArg ha), fun k ha =>
      ⟨fun hk => h.refuses (act := subscribeAction p) (withSlot_notFound ha hk), fun r hk => ⟨fun hs => ?_, fun hs hn => ?_,
        fun hs hn => ?_⟩⟩⟩,
    fun h => ⟨fun ha => h.refuses (act := unsubscribeAction p) (withSlot_badArg ha), fun k ha =>
      ⟨fun hk => h.refuses (act := unsubscribeAction p) (withSlot_notFound ha hk), fun r hk => ⟨fun ho => ?_,
        fun ho hs => ?_, fun ho hs hf => ?_, fun ho hs hf => ?_⟩⟩⟩⟩
  · exact h.accepts (act := subscribeAction p) (by rw [subscribeAction_eq ha hk, if_pos hs])
  · exact h.refuses (act := subscribeAction p) (by rw [subscribeAction_eq ha hk, if_neg (by simp [hs]), if_neg (by simp [hn])])
  · exact h.accepts (act := subscribeAction p) (by rw [subscribeAction_eq ha hk, if_neg (by simp [hs]), if_pos hn])
  · exact h.refuses (act := unsubscribeAction p) (by rw [unsubscribeAction_eq ha hk, if_pos ho])
  · exact h.accepts (act := unsubscribeAction p) (by rw [unsubscribeAction_eq ha hk, if_neg ho, if_pos (by simp [hs])])
  · exact h.refuses (act := unsubscribeAction p)
      (by rw [unsubscribeAction_eq ha hk, if_neg ho, if_neg (by simp [hs]), if_pos hf])
  · exact h.accepts (act := unsubscribeAction p)
      (by rw [unsubscribeAction_eq ha hk, if_neg ho, if_neg (by simp [hs]), if_neg (by simp [hf])])

/-- Settles O28: the snapshot's three flag bytes bit by bit, the rest as R189 lays it out. -/
theorem readSlotCommand : Obligations.ReadSlotCommand := by
  refine ⟨fun s p f h => ⟨fun ha => h.refuses (act := readSlotAction) (withSlot_badArg ha), fun k ha =>
    ⟨fun hk => h.refuses (act := readSlotAction) (withSlot_notFound ha hk), fun r hk =>
      h.accepts (act := readSlotAction) (withSlot_defined ha hk)⟩⟩, fun k r => ⟨?_, subsByte r.subs, optionsByte r,
        flagBit ((r.last.map (·.reading.sat)).getD false) 0 ||| flagBit ((r.last.map (·.reading.low)).getD false) 1, ?_,
        ?_, ?_, ?_, ?_, ?_, ?_, ?_, fun l hl => ?_⟩⟩
  · unfold snapshotBytes
    cases r.last <;> rfl
  · unfold snapshotBytes
    cases r.owner <;> cases r.key.baseline <;> cases r.last <;> rfl
  · simp [subsByte, flagBit_getElem, PerPort.get]
  · simp [subsByte, flagBit_getElem, PerPort.get]
  · exact or_lt (m := 2) (flagBit_lt _ (by decide)) (flagBit_lt _ (by decide))
  · simp [optionsByte, flagBit_getElem]
  · simp [optionsByte, flagBit_getElem]
  · simp [optionsByte, flagBit_getElem]
  · exact or_lt (m := 3) (or_lt (flagBit_lt _ (by decide)) (flagBit_lt _ (by decide))) (flagBit_lt _ (by decide))
  · refine ⟨by simp [hl, flagBit_getElem], by simp [hl, flagBit_getElem], ?_⟩
    exact or_lt (m := 2) (flagBit_lt _ (by decide)) (flagBit_lt _ (by decide))

/-- Settles O29: the subscriber set decides, and then whether the key is pressed. -/
theorem recalibrateCommand : Obligations.RecalibrateCommand := by
  intro s p f h
  refine ⟨fun ha => h.refuses (act := recalibrateAction p) (withSlot_badArg ha), fun k ha =>
    ⟨fun hk => h.refuses (act := recalibrateAction p) (withSlot_notFound ha hk), fun r hk => ⟨fun hs => ?_,
      fun hs hheld hlifting => ?_, fun b l hs hstate hb hl => ?_⟩⟩⟩
  · exact h.refuses (act := recalibrateAction p) (by rw [recalibrateAction_eq ha hk, if_neg (by simp [hs])])
  · refine h.accepts (act := recalibrateAction p) ?_
    rw [recalibrateAction_eq ha hk, if_pos hs, State.postForcedRelease_of_not_pressed s k hheld hlifting]
    rfl
  · refine h.accepts (act := recalibrateAction p) ?_
    rw [recalibrateAction_eq ha hk, if_pos hs, State.postForcedRelease_of_pressed s k hstate hb hl]
    rfl

/-- Settles O30: whether a slot of the other port names the profile decides. -/
theorem setProfileCommand : Obligations.SetProfileCommand := by
  intro s p f h
  refine ⟨fun ha => h.refuses (act := setProfileAction p) ?_, fun i pf ha => ⟨fun hnamed => ?_, fun hfree => ?_⟩⟩
  · simp only [setProfileAction, ha]
  · refine h.refuses (act := setProfileAction p) ?_
    simp only [setProfileAction, ha, if_pos (State.profileNamedBy_iff.2 hnamed)]
  · refine h.accepts (act := setProfileAction p) ?_
    have hnot : ¬ s.profileNamedBy p.other i = true := fun hn => by
      obtain ⟨k, r, hk, ho, hi⟩ := State.profileNamedBy_iff.1 hn
      exact hfree k r hk ho hi
    simp only [setProfileAction, ha, if_neg hnot]

end Sys2Proof.Proofs
end

section
/-! PROOFS. The sweep commands (R31–R39), the time base and the cadence timers (R124–R136), the quiet gate (R86–R96). -/

namespace Sys2Proof.Machine

variable {s u : State} {p : Port} {f : Frame} {k : SlotNo} {ks : List SlotNo} {r : SweepRequest}

/-! ## Lists of slots -/

theorem State.allDefined_iff : s.allDefined ks = true ↔ ∀ k ∈ ks, s.slot k ≠ none := by
  simp [allDefined, Option.isSome_iff_ne_none]

theorem State.allDefined_eq_false (h : ∃ k ∈ ks, s.slot k = none) : s.allDefined ks = false := by
  obtain ⟨k, hk, hn⟩ := h
  exact Bool.eq_false_iff.2 fun hall => allDefined_iff.1 hall k hk hn

theorem State.allSubscribed_eq_true (hdef : ∀ k ∈ ks, s.slot k ≠ none)
    (h : ∀ k ∈ ks, ∀ x, s.slot k = some x → x.subs.get p = true) : s.allSubscribed p ks = true := by
  rw [allSubscribed, List.all_eq_true]
  intro k hk
  obtain ⟨x, hx⟩ := Option.ne_none_iff_exists'.1 (hdef k hk)
  rw [subscribes_iff]
  exact ⟨x, hx, h k hk x hx⟩

theorem State.allSubscribed_eq_false (h : ∃ k ∈ ks, ∃ x, s.slot k = some x ∧ x.subs.get p = false) :
    s.allSubscribed p ks = false := by
  obtain ⟨k, hk, x, hx, hsub⟩ := h
  refine Bool.eq_false_iff.2 fun hall => ?_
  obtain ⟨y, hy, hsub'⟩ := subscribes_iff.1 (List.all_eq_true.1 hall k hk)
  rw [hx] at hy
  obtain rfl := Option.some.inj hy
  simp [hsub] at hsub'

theorem sweepAction_eq {c : SweepChoice} (ha : sweepArg f.payload = some c) (hks : s.sweepList p c = ks) (hne : ks ≠ []) :
    sweepAction p s f =
      if !s.allDefined ks then .refuse .notFound
      else if !s.allSubscribed p ks then .refuse .denied
      else if Config.requestsPerPort ≤ (s.requestsOf p).length then .refuse .qFull
      else .accept (s.addRequest p .command ks).roundStartCheck [byteOf s.freeSweepId] := by
  simp only [sweepAction, ha, hks, List.isEmpty_iff, hne, if_false]

/-! ## CANCEL -/

/-- A walk on which no request leaves changes the queue alone. -/
theorem State.walkQueue_of_stays {fate : SweepRequest → Fate} {g : SweepRequest → SweepRequest}
    (h : ∀ r ∈ s.queue, fate r = .stays (g r)) : s.walkQueue fate = { s with queue := s.queue.map g } := by
  have hkept : (s.queue.filterMap fun r => (fate r).kept) = s.queue.map g := by
    rw [← List.filterMap_eq_map]
    exact List.filterMap_congr fun r hr => by rw [h r hr]; rfl
  have hposts : (s.queue.flatMap fun r => (fate r).events) = [] :=
    List.flatMap_eq_nil_iff.2 fun r hr => by rw [h r hr]; rfl
  rw [walkQueue, hkept, hposts, postAll_nil]

/-- A walk on which one request leaves and the others stay as they are. -/
theorem State.walkQueue_of_leaves {fate : SweepRequest → Fate} {before after : List SweepRequest} {es : List (Port × Event)}
    (hq : s.queue = before ++ r :: after) (hr : fate r = .leaves es) (hbefore : ∀ x ∈ before, fate x = .stays x)
    (hafter : ∀ x ∈ after, fate x = .stays x) :
    s.walkQueue fate = { s with queue := before ++ after }.postAll es := by
  have hkept (xs : List SweepRequest) (h : ∀ x ∈ xs, fate x = .stays x) : (xs.filterMap fun x => (fate x).kept) = xs := by
    conv_rhs => rw [← List.filterMap_some (l := xs)]
    exact List.filterMap_congr fun x hx => by rw [h x hx]; rfl
  have hposts (xs : List SweepRequest) (h : ∀ x ∈ xs, fate x = .stays x) : (xs.flatMap fun x => (fate x).events) = [] :=
    List.flatMap_eq_nil_iff.2 fun x hx => by rw [h x hx]; rfl
  rw [walkQueue, hq, List.filterMap_append, List.filterMap_cons, hkept before hbefore, hkept after hafter, List.flatMap_append,
    List.flatMap_cons, hposts before hbefore, hposts after hafter, hr]
  simp [Fate.kept, Fate.events]

theorem cancelFate_of_ne {id : Nat} (h : r.id ≠ id) : cancelFate id r = .stays r := if_neg h

theorem State.find?_id_eq_some {id : Nat} (hnodup : (s.queue.map (·.id)).Nodup) (hr : r ∈ s.queue) (hid : r.id = id) :
    s.queue.find? (fun x => decide (x.id = id)) = some r := by
  obtain ⟨x, hx⟩ := Option.isSome_iff_exists.1
    (List.find?_isSome (p := fun x => decide (x.id = id)).2 ⟨r, hr, decide_eq_true hid⟩)
  have hxid : x.id = id := by simpa using List.find?_some hx
  rw [hx, List.inj_on_of_nodup_map hnodup (List.mem_of_find?_eq_some hx) hr (hxid.trans hid.symm)]

theorem cancelAction_eq {id : Nat} (ha : cancelArg f.payload = some id) (hnodup : (s.queue.map (·.id)).Nodup)
    (hr : r ∈ s.queue) (hid : r.id = id) :
    cancelAction p s f = if r.port ≠ p then .refuse .denied else .accept (s.walkQueue (cancelFate id)) [] := by
  simp only [cancelAction, ha, State.find?_id_eq_some hnodup hr hid]

theorem State.cancel_engaged {id : Nat} (hnodup : (s.queue.map (·.id)).Nodup) (hr : r ∈ s.queue) (hid : r.id = id)
    (he : r.engaged ≠ []) :
    s.walkQueue (cancelFate id) =
      { s with queue := s.queue.map fun x => if x.id = id then { x with cancelling := true } else x } := by
  refine walkQueue_of_stays fun x hx => ?_
  by_cases hxid : x.id = id
  · obtain rfl : x = r := List.inj_on_of_nodup_map hnodup hx hr (hxid.trans hid.symm)
    rw [cancelFate, if_pos hxid, if_pos (SweepRequest.isEngaged_iff.2 he), if_pos hxid]
  · rw [cancelFate_of_ne hxid, if_neg hxid]

/-- A waiting request leaves with SWEEP_CANCELLED, unless it is stale (R39, R43). -/
theorem State.cancel_waiting {id : Nat} (hnodup : (s.queue.map (·.id)).Nodup) (hr : r ∈ s.queue) (hid : r.id = id)
    (hp : r.port = p) (he : r.engaged = []) :
    let left : State := { s with queue := s.queue.filter fun x => decide (x.id ≠ id) }
    s.walkQueue (cancelFate id) =
      if r.stale = true then left else left.post p (sweepEvent .sweepCancelled id r.remaining.length none) := by
  obtain ⟨before, after, hq⟩ := List.append_of_mem hr
  have hne : (∀ x ∈ before, x.id ≠ id) ∧ ∀ x ∈ after, x.id ≠ id := by
    rw [hq, List.map_append, List.map_cons, List.nodup_append, List.nodup_cons] at hnodup
    obtain ⟨-, ⟨hafter, -⟩, hbefore⟩ := hnodup
    refine ⟨fun x hx heq => hbefore x.id (List.mem_map_of_mem hx) r.id List.mem_cons_self (heq.trans hid.symm), fun x hx heq => ?_⟩
    exact hafter (List.mem_map.2 ⟨x, hx, heq.trans hid.symm⟩)
  have hfate : cancelFate id r = .leaves (r.report (cancelledEvent r)) := by
    rw [cancelFate, if_pos hid, if_neg (by simp [SweepRequest.isEngaged, he])]
  have hkept (xs : List SweepRequest) (h : ∀ x ∈ xs, x.id ≠ id) : xs.filter (fun x => decide (x.id ≠ id)) = xs :=
    List.filter_eq_self.2 fun x hx => decide_eq_true (h x hx)
  have hleft : s.queue.filter (fun x => decide (x.id ≠ id)) = before ++ after := by
    rw [hq, List.filter_append, List.filter_cons_of_neg (by simp [hid]), hkept before hne.1, hkept after hne.2]
  rw [walkQueue_of_leaves hq hfate (fun x hx => cancelFate_of_ne (hne.1 x hx)) fun x hx => cancelFate_of_ne (hne.2 x hx),
    hleft, SweepRequest.report]
  split
  · rfl
  · rw [postAll_cons, postAll_nil, hp, cancelledEvent, hid]

end Sys2Proof.Machine

namespace Sys2Proof.Proofs

open Sys2Proof.Machine

/-- Settles O19: among the seven candidates one is free, and the search finds the first. -/
theorem sweepIds : Obligations.SweepIds := by
  refine ⟨fun s h => ?_, rfl, fun n hn => if_pos hn⟩
  obtain ⟨-, -, -, hid⟩ := id h
  obtain ⟨i, hi, heq, hfree, hbefore⟩ := h.freeSweepId_first
  refine ⟨i, hi, heq.trans (sweepIdAfter_eq hid i), fun r hr he => hfree (he ▸ List.mem_map_of_mem hr), fun j hj => ?_⟩
  rw [← sweepIdAfter_eq hid]
  exact List.mem_map.1 (hbefore j hj)

/-- Settles O20: check by check over the list. -/
theorem setStandingCommand : Obligations.SetStandingCommand := by
  intro s p f h
  refine ⟨fun ha => h.refuses (act := setStandingAction p) ?_, fun ks ha => ⟨fun hfree => ?_, fun hdef =>
    ⟨fun hnot => ?_, fun hsub => ?_⟩⟩⟩
  · simp only [setStandingAction, ha]
  · refine h.refuses (act := setStandingAction p) ?_
    simp only [setStandingAction, ha, State.allDefined_eq_false hfree]
    rfl
  · refine h.refuses (act := setStandingAction p) ?_
    simp only [setStandingAction, ha, State.allDefined_iff.2 hdef, State.allSubscribed_eq_false hnot]
    rfl
  · refine h.accepts (act := setStandingAction p) ?_
    simp only [setStandingAction, ha, State.allDefined_iff.2 hdef, State.allSubscribed_eq_true hdef hsub]
    rfl

/-- Settles O21: the list that the SWEEP stands for, then check by check. -/
theorem sweepCommand : Obligations.SweepCommand := by
  intro s p f h
  refine ⟨fun ha => h.refuses (act := sweepAction p) ?_, fun ha hnil => h.refuses (act := sweepAction p) ?_,
    fun ks hne hks => ?_⟩
  · simp only [sweepAction, ha]
  · simp only [sweepAction, ha, State.sweepList, hnil, List.isEmpty_nil, if_true]
  · obtain ⟨c, ha, hlist⟩ : ∃ c, sweepArg f.payload = some c ∧ s.sweepList p c = ks := by
      obtain ha | ⟨ha, hstanding⟩ := hks
      · exact ⟨_, ha, rfl⟩
      · exact ⟨_, ha, hstanding⟩
    have heq := sweepAction_eq ha hlist hne
    refine ⟨fun hfree => ?_, fun hdef => ⟨fun hnot => ?_, fun hsub => ⟨fun hfull => ?_, fun hroom => ?_⟩⟩⟩
    · exact h.refuses (act := sweepAction p) (by rw [heq, State.allDefined_eq_false hfree]; rfl)
    · exact h.refuses (act := sweepAction p)
        (by rw [heq, State.allDefined_iff.2 hdef, State.allSubscribed_eq_false hnot]; rfl)
    · refine h.refuses (act := sweepAction p) ?_
      rw [heq, State.allDefined_iff.2 hdef, State.allSubscribed_eq_true hdef hsub]
      exact if_pos hfull
    · refine h.accepts (act := sweepAction p) ?_
      rw [heq, State.allDefined_iff.2 hdef, State.allSubscribed_eq_true hdef hsub]
      exact if_neg (Nat.not_le.2 hroom)

/-- Settles O22: with distinct ids the walk finds the one request named. -/
theorem cancelCommand : Obligations.CancelCommand := by
  intro s p f h hnodup
  refine ⟨fun ha => h.refuses (act := cancelAction p) ?_, fun id ha => ⟨fun hnone => h.refuses (act := cancelAction p) ?_,
    fun r hr hid => ⟨fun hp => ?_, fun hp he => ?_, fun hp he => ?_⟩⟩⟩
  · simp only [cancelAction, ha]
  · have hfind : s.queue.find? (fun r => decide (r.id = id)) = none :=
      List.find?_eq_none.2 fun r hr => by simpa using hnone r hr
    simp only [cancelAction, ha, hfind]
  · exact h.refuses (act := cancelAction p) (by rw [cancelAction_eq ha hnodup hr hid, if_pos hp])
  · refine h.accepts (act := cancelAction p) ?_
    rw [cancelAction_eq ha hnodup hr hid, if_neg (not_not.2 hp), State.cancel_engaged hnodup hr hid he]
  · refine h.accepts (act := cancelAction p) ?_
    rw [cancelAction_eq ha hnodup hr hid, if_neg (not_not.2 hp), State.cancel_waiting hnodup hr hid hp he]

end Sys2Proof.Proofs
end

section
/-! PROOFS. The time base and the cadence timers (R124–R136), and the quiet gate (R86–R96). -/

namespace Sys2Proof.Machine

variable {s u : State} {p : Port} {f : Frame} {r : SweepRequest} {c : Cadence} {round : Round}

/-! ## Ticks -/

theorem Cadence.reachedByTick_stopped (h : c.running = false) : c.reachedByTick = c := by simp [reachedByTick, h]

theorem Cadence.reachedByTick_running (h : c.running = true) :
    c.reachedByTick =
      { c with counter := c.counter - min (c.owed + 1) (c.counter - 1)
               owed := c.owed + 1 - min (c.owed + 1) (c.counter - 1) } := by
  simp [reachedByTick, h]

/-! ## An expiry at the sweep queue (R35) -/

theorem State.expiryAtQueue_of_nil (h : s.standing p = []) : s.expiryAtQueue p = s := by
  simp [expiryAtQueue, h]

theorem State.expiryAtQueue_of_timer (h : s.standing p ≠ [])
    (hfind : (s.requestsOf p).find? (fun r => decide (r.origin = .timer)) = some r) :
    s.expiryAtQueue p = s.post p (sweepEvent .cadenceSlip r.id (s.requestsOf p).length none) := by
  simp [expiryAtQueue, h, hfind]

theorem State.expiryAtQueue_of_full (h : s.standing p ≠ [])
    (hfind : (s.requestsOf p).find? (fun r => decide (r.origin = .timer)) = none)
    (hfull : Config.requestsPerPort ≤ (s.requestsOf p).length) :
    s.expiryAtQueue p = s.post p (sweepEvent .cadenceSlip 0 (s.requestsOf p).length none) := by
  simp [expiryAtQueue, h, hfind, hfull]

theorem State.expiryAtQueue_of_room (h : s.standing p ≠ [])
    (hfind : (s.requestsOf p).find? (fun r => decide (r.origin = .timer)) = none)
    (hroom : (s.requestsOf p).length < Config.requestsPerPort) :
    s.expiryAtQueue p = (s.addRequest p .timer (s.standing p)).roundStartCheck := by
  simp [expiryAtQueue, h, hfind, hroom]

/-- The port's first TIMER request in the queue (R35). -/
theorem State.find?_timer {before after : List SweepRequest} (hq : s.queue = before ++ r :: after) (hp : r.port = p)
    (ho : r.origin = .timer) (hbefore : ∀ x ∈ before, x.port = p → x.origin ≠ .timer) :
    (s.requestsOf p).find? (fun r => decide (r.origin = .timer)) = some r := by
  rw [requestsOf, List.find?_filter, List.find?_eq_some_iff_append]
  exact ⟨by simp [hp, ho], before, after, hq, fun x hx => by simpa [imp_iff_not_or] using hbefore x hx⟩

theorem State.find?_timer_eq_none (h : ∀ x ∈ s.queue, x.port = p → x.origin ≠ .timer) :
    (s.requestsOf p).find? (fun r => decide (r.origin = .timer)) = none := by
  rw [requestsOf, List.find?_filter, List.find?_eq_none]
  exact fun x hx => by simpa using h x hx

theorem State.takeTick_of_above (hrun : (s.cadence p).running = true) (howed : 0 < (s.cadence p).owed)
    (h : 1 < (s.cadence p).counter) :
    s.takeTick p = s.setCadence p
      { s.cadence p with counter := (s.cadence p).counter - 1, owed := (s.cadence p).owed - 1 } := by
  simp [takeTick, hrun, howed, h]

theorem State.takeTick_of_one (hrun : (s.cadence p).running = true) (howed : 0 < (s.cadence p).owed)
    (h : (s.cadence p).counter = 1) :
    s.takeTick p = (s.setCadence p
      { s.cadence p with counter := (s.cadence p).latch, owed := (s.cadence p).owed - 1 }).expiryAtQueue p := by
  simp [takeTick, hrun, howed, h]

/-! ## SET_CADENCE -/

theorem isCadence_iff {action : CadenceAction} :
    Frame.isCadence action f = true ↔ f.code = codeSetCadence ∧ (f.cadenceAction = some action ∨ f.cadenceAction = none) := by
  simp [Frame.isCadence]

theorem periodArg_numBytes (a : Byte) {n : Nat} (hn : n < 65536) :
    periodArg (a :: numBytes n) = if periodWellFormed n then some n else none := by
  simp only [numBytes, wordBytes, periodArg, numOf_numBytes hn]

theorem periodArg_of_length {bs : List Byte} (h : bs.length ≠ 3) : periodArg bs = none := by
  match bs, h with
  | [], _ => rfl
  | [_], _ => rfl
  | [_, _], _ => rfl
  | [_, _, _], h => exact absurd rfl h
  | _ :: _ :: _ :: _ :: _, _ => rfl

section

variable (h : s.ExecutesOpen p f 0x28) {action : CadenceAction}
  (hm : f.cadenceAction = some action ∨ f.cadenceAction = none)

include h hm

theorem cadenceRow_runs :
    runCommand (Frame.isCadence action) true (setCadenceAction p) p s =
      .next (s.respondAnswer p f.tag (setCadenceAction p s f)) :=
  h.runs_row (isCadence_iff.2 ⟨h.code_eq, hm⟩)

theorem cadenceRow_refuses (ha : setCadenceAction p s f = .refuse .badArg) :
    runCommand (Frame.isCadence action) true (setCadenceAction p) p s = .next (s.respond p f.tag .badArg []) := by
  rw [cadenceRow_runs h hm, ha]
  rfl

theorem cadenceRow_accepts (ha : setCadenceAction p s f = s.acceptCadence p c) :
    runCommand (Frame.isCadence action) true (setCadenceAction p) p s =
      .next ((s.setCadence p c).respond p f.tag .ok (cadenceBytes c)) := by
  rw [cadenceRow_runs h hm, ha]
  rfl

end

/-! ## The quiet gate -/

theorem observedState_eq (settings : GateSettings) (line : Level) :
    observedState settings line = if settings.enabled = true ∧ line ≠ settings.openLevel then .shut else .opened := by
  simp only [observedState, Bool.and_eq_true, decide_eq_true_eq]

/-- The line level taken from QUIET, before the observed state is formed (R86). -/
def State.withLine (s : State) (level : Level) : State := { s with gate := { s.gate with line := level } }

section

variable {state : GateState} (hnew : observedState s.gate.settings s.gate.line = state)

include hnew

theorem State.observing_eq : s.observing = { s with gate := { s.gate with observed := state } } := by
  rw [observing, hnew]

theorem State.formObserved_of_same (h : s.gate.observed = state) : s.formObserved = s.observing := by
  cases state <;> simp [formObserved, hnew, h, observing]

end

theorem State.formObserved_of_opens (hnew : observedState s.gate.settings s.gate.line = .opened)
    (h : s.gate.observed = .shut) : s.formObserved = s.observing.roundStartCheck := by
  simp [formObserved, hnew, h, observing]

theorem State.formObserved_of_shuts (hnew : observedState s.gate.settings s.gate.line = .shut)
    (h : s.gate.observed = .opened) (hround : s.round = some round) : s.formObserved = s.observing.abortRound round := by
  simp [formObserved, hnew, h, observing, hround]

theorem State.formObserved_of_shuts_idle (hnew : observedState s.gate.settings s.gate.line = .shut)
    (h : s.gate.observed = .opened) (hround : s.round = none) : s.formObserved = s.observing := by
  simp [formObserved, hnew, h, observing, hround]

/-- A round-start check that has just been made finds nothing to start (R49). -/
theorem State.roundStartCheck_roundStartCheck (s : State) : s.roundStartCheck.roundStartCheck = s.roundStartCheck := by
  by_cases hmay : s.roundMayStart = true
  · obtain ⟨hround, hq, hopen⟩ := roundMayStart_iff.1 hmay
    rw [roundStartCheck_of_may hround hq hopen, roundStartCheck_of_not (.inl (by simp))]
  · have hstay : s.roundStartCheck = s := if_neg hmay
    rw [hstay, hstay]

theorem setGateAction_eq {g : GateSettings} (ha : gateArg f.payload = some g) (hholder : s.gate.holder ≠ some p.other) :
    setGateAction p s f =
      .accept (s.applyGate p g) [gateStateByte (s.applyGate p g).gate.observed, portByte (s.applyGate p g).gate.holder] := by
  simp only [setGateAction, ha, if_neg hholder]

end Sys2Proof.Machine

namespace Sys2Proof.Proofs

open Sys2Proof.Machine

/-- Settles O16: `reachedByTick` at either port's timer. -/
theorem tickCommand : Obligations.TickCommand := by
  intro s hr
  refine ⟨s.timeBaseTick, s.whileRunning_running State.timeBaseTick hr, ?_, fun p => ?_⟩
  · simp only [State.timeBaseTick_cadence]
    rfl
  · rw [State.timeBaseTick_cadence]
    refine ⟨Cadence.reachedByTick_stopped, fun hrun howed hcount => ?_, fun hrun howed hcount => ?_, fun hrun hcount => ?_⟩
    · have hmin : min 1 ((s.cadence p).counter - 1) = 1 := by omega
      simp [Cadence.reachedByTick_running hrun, howed, hmin]
    · simp [Cadence.reachedByTick_running hrun, howed, hcount]
    · rw [Cadence.reachedByTick_running hrun]
      dsimp only
      omega

/-- Settles O17: the counter decides, and then the four cases of R35 in their order. -/
theorem cadenceExpiryCommand : Obligations.CadenceExpiryCommand := by
  intro s p hr hrun howed
  have hexec : exec (.cadenceExpiry p) s = .next (s.takeTick p) := s.whileRunning_running (fun s => s.takeTick p) hr
  refine ⟨fun habove => by rw [hexec, State.takeTick_of_above hrun howed habove], fun hone => ?_⟩
  rw [hexec, State.takeTick_of_one hrun howed hone]
  refine ⟨fun hnil => ?_, fun hne => ⟨fun before after r hq hp ho hbefore => ?_, fun hnone hfull => ?_,
    fun hnone hroom => ?_⟩⟩
  · exact congrArg Host.Outcome.next (State.expiryAtQueue_of_nil (by simpa using hnil))
  · exact congrArg Host.Outcome.next
      (State.expiryAtQueue_of_timer (by simpa using hne) (State.find?_timer (by simpa using hq) hp ho hbefore))
  · exact congrArg Host.Outcome.next
      (State.expiryAtQueue_of_full (by simpa using hne) (State.find?_timer_eq_none (by simpa using hnone)) hfull)
  · refine congrArg Host.Outcome.next
      ((State.expiryAtQueue_of_room (s := s.setCadence p _) (by simpa using hne)
        (State.find?_timer_eq_none (by simpa using hnone)) hroom).trans ?_)
    simp only [State.addRequest, newRequest, State.setCadence_standing, State.setCadence_session]
    rfl

/-- Settles O18: the action byte names the row; the length and the period decide. -/
theorem setCadenceCommands : Obligations.SetCadenceCommands := by
  intro s p f h
  have hcons {a : Byte} {rest : List Byte} (hf : f.payload = a :: rest) : f.cadenceAction =
      if a = 1 then some .load else if a = 2 then some .stage else if a = 3 then some .stop
      else if a = 4 then some .resume else none := by simp only [Frame.cadenceAction, hf]
  have hload {rest : List Byte} (hf : f.payload = 1 :: rest) : f.cadenceAction = some .load := hcons hf
  have hstage {rest : List Byte} (hf : f.payload = 2 :: rest) : f.cadenceAction = some .stage := hcons hf
  have hstop {rest : List Byte} (hf : f.payload = 3 :: rest) : f.cadenceAction = some .stop := hcons hf
  have hresume {rest : List Byte} (hf : f.payload = 4 :: rest) : f.cadenceAction = some .resume := hcons hf
  have hperiod {a : Byte} {n : Nat} (hf : f.payload = a :: numBytes n) (hn : 5 ≤ n ∧ n ≤ 50000) :
      periodArg f.payload = some n := by
    rw [hf, periodArg_numBytes a (by omega), if_pos ((periodWellFormed_iff n).2 hn)]
  have hperiod' {a : Byte} {n : Nat} (hf : f.payload = a :: numBytes n) (hn : n < 65536) (hout : n < 5 ∨ 50000 < n) :
      periodArg f.payload = none := by
    rw [hf, periodArg_numBytes a hn, if_neg (by rw [periodWellFormed_iff]; omega)]
  have hlen {a : Byte} {n : Nat} (hf : f.payload = a :: numBytes n) : f.payload.length = 3 := by rw [hf]; rfl
  refine ⟨fun n h5 h50000 hf => ?_, fun n h5 h50000 hf => ?_, fun n hn hf => ?_, fun n hn hf hc => ?_, fun n hn hf hc => ?_,
    fun n hn hout => ⟨fun hf => ?_, fun hf => ?_⟩, fun a rest hf hrest => ?_, fun hnone => ?_⟩
  · exact cadenceRow_accepts h (.inl (hload hf)) (by simp only [setCadenceAction, hload hf, hperiod hf ⟨h5, h50000⟩]; rfl)
  · exact cadenceRow_accepts h (.inl (hstage hf)) (by simp only [setCadenceAction, hstage hf, hperiod hf ⟨h5, h50000⟩]; rfl)
  · exact cadenceRow_accepts h (.inl (hstop hf)) (by simp only [setCadenceAction, hstop hf, hlen hf]; rfl)
  · exact cadenceRow_accepts h (.inl (hresume hf))
      (by simp only [setCadenceAction, hresume hf, hlen hf, Cadence.resume, hc]; rfl)
  · exact cadenceRow_accepts h (.inl (hresume hf))
      (by simp only [setCadenceAction, hresume hf, hlen hf, Cadence.resume, hc]; rfl)
  · exact cadenceRow_refuses h (.inl (hload hf)) (by simp only [setCadenceAction, hload hf, hperiod' hf hn hout])
  · exact cadenceRow_refuses h (.inl (hstage hf)) (by simp only [setCadenceAction, hstage hf, hperiod' hf hn hout])
  · have hlen' : f.payload.length ≠ 3 := by simp [hf, hrest]
    refine ⟨?_, ?_, ?_, ?_⟩
    · rintro rfl
      exact cadenceRow_refuses h (.inl (hload hf)) (by simp only [setCadenceAction, hload hf, periodArg_of_length hlen'])
    · rintro rfl
      exact cadenceRow_refuses h (.inl (hstage hf)) (by simp only [setCadenceAction, hstage hf, periodArg_of_length hlen'])
    · rintro rfl
      exact cadenceRow_refuses h (.inl (hstop hf)) (by simp only [setCadenceAction, hstop hf, if_neg hlen'])
    · rintro rfl
      exact cadenceRow_refuses h (.inl (hresume hf)) (by simp only [setCadenceAction, hresume hf, if_neg hlen'])
  · have haction : f.cadenceAction = none := by
      obtain hf | ⟨a, rest, hf, ha⟩ := hnone
      · simp only [Frame.cadenceAction, hf]
      · rw [hcons hf, if_neg, if_neg, if_neg, if_neg] <;> rintro rfl <;> revert ha <;> decide
    have hrefuse : setCadenceAction p s f = .refuse .badArg := by simp only [setCadenceAction, haction]
    simp only [List.forall_mem_cons, List.not_mem_nil, false_imp_iff, implies_true, and_true]
    exact ⟨cadenceRow_refuses h (.inr haction) hrefuse, cadenceRow_refuses h (.inr haction) hrefuse,
      cadenceRow_refuses h (.inr haction) hrefuse, cadenceRow_refuses h (.inr haction) hrefuse⟩

/-- Settles O14: the observed state before and after, and the running round, decide. -/
theorem quietLevelChange : Obligations.QuietLevelChange := by
  intro s level hr
  have hexec : exec (.quietLevelChange level) s = .next (s.withLine level).formObserved :=
    s.whileRunning_running (fun s => s.quietChange level) hr
  have hnew := observedState_eq s.gate.settings level
  have hmoved : (s.withLine level).observing = _ := State.observing_eq (s := s.withLine level) hnew
  rw [hexec]
  refine ⟨fun hsame => ?_, fun hshut hopen => ?_, fun hopen hshut hround => ?_, fun round hopen hshut hround => ?_⟩
  · rw [State.formObserved_of_same (s := s.withLine level) hnew hsame, hmoved]
    rfl
  · rw [State.formObserved_of_opens (s := s.withLine level) (hnew.trans hopen) hshut, hmoved]
    rfl
  · rw [State.formObserved_of_shuts_idle (s := s.withLine level) (hnew.trans hshut) hopen hround, hmoved]
    rfl
  · rw [State.formObserved_of_shuts (s := s.withLine level) (hnew.trans hshut) hopen hround, hmoved]
    rfl

/-- Settles O15: the holder decides, and then the observed state before and after. -/
theorem setGateCommand : Obligations.SetGateCommand := by
  intro s p f h
  refine ⟨fun ha => h.refuses (act := setGateAction p) ?_, fun g ha hholder => h.refuses (act := setGateAction p) ?_,
    fun g ha hholder => ?_⟩
  · simp only [setGateAction, ha]
  · simp only [setGateAction, ha, if_pos hholder]
  · have hnew := observedState_eq g s.gate.line
    have hgate : (s.applyGate p g).gate = (s.withGate p g).observing.gate := by
      rw [State.applyGate_eq, State.roundStartCheck_gate, State.formObserved_gate]
      rfl
    have hmoved : (s.withGate p g).observing = _ := State.observing_eq (s := s.withGate p g) hnew
    have hexec : exec (.setGate p) s = .next ((s.withGate p g).formObserved.roundStartCheck.respond p f.tag .ok
        [gateStateByte (s.withGate p g).observing.gate.observed, portByte (s.withGate p g).observing.gate.holder]) := by
      rw [← hgate, ← State.applyGate_eq]
      exact h.accepts (act := setGateAction p) (setGateAction_eq ha hholder)
    rw [hexec]
    refine ⟨fun round hopen hshut hround => ?_, fun hcases => ?_⟩
    · rw [State.formObserved_of_shuts (s := s.withGate p g) (hnew.trans hshut) hopen hround, hmoved]
      rfl
    · have hformed : (s.withGate p g).formObserved.roundStartCheck = (s.withGate p g).observing.roundStartCheck := by
        rcases (s.withGate p g).formObserved_cases with
          ⟨-, heq⟩ | ⟨hopen, hshut, ⟨-, heq⟩ | ⟨round, hround, -⟩⟩ | ⟨-, -, heq⟩
        · rw [heq]
        · rw [heq]
        · obtain h | h | h := hcases
          · exact absurd (h.symm.trans hopen) (by decide)
          · exact absurd (h.symm.trans (hnew.symm.trans hshut)) (by decide)
          · exact absurd (h.symm.trans hround) (by simp)
        · rw [heq, State.roundStartCheck_roundStartCheck]
      rw [hformed, hmoved]
      rfl

end Sys2Proof.Proofs
end

section
/-! PROOFS. FETCH (R148, R149), sessions (R159–R168), and the port's own answers: checks 1 to 3 (R182), STATUS (R195–R197)
and RESEND (R185). -/

namespace Sys2Proof.Machine

variable {s t : State} {p : Port} {f : Frame} {code : Byte}

/-! ## FETCH -/

/-- A record as FETCH leaves it (R148). -/
def EventRecord.fetched (r : EventRecord) : EventRecord := { r with delivered := true }

theorem EventQueue.deliver_records (q : EventQueue) (n : Nat) :
    (q.deliver n).records = (q.records.take n).map EventRecord.fetched ++ q.records.drop n := rfl

theorem EventQueue.take_deliver (q : EventQueue) (n : Nat) :
    (q.deliver n).records.take n = (q.records.take n).map EventRecord.fetched := by
  rw [deliver_records, List.take_append, List.take_of_length_le (by simp)]
  simp
  omega

theorem EventQueue.deliver_length (q : EventQueue) (n : Nat) : (q.deliver n).records.length = q.records.length := by
  simp [deliver_records]
  omega

/-- Only the records behind those taken can still be undelivered (R148, R152). -/
theorem EventQueue.any_deliver (q : EventQueue) (n : Nat) :
    ((q.deliver n).records.any fun r => !r.delivered) = (q.records.drop n).any fun r => !r.delivered := by
  have hfetched : (((q.records.take n).map EventRecord.fetched).any fun r => !r.delivered) = false := by
    rw [List.any_map]
    exact List.any_eq_false.2 fun _ _ => by simp [EventRecord.fetched]
  rw [deliver_records, List.any_append, hfetched, Bool.false_or]

theorem recordBytes_fetched (r : EventRecord) : recordBytes r.fetched = recordBytes r := rfl

theorem recordBytes_length (r : EventRecord) : (recordBytes r).length = 12 := by
  unfold recordBytes
  cases r.event.aux <;> rfl

theorem flatMap_length_const {α β : Type} {g : α → List β} {n : Nat} (h : ∀ x, (g x).length = n) (xs : List α) :
    (xs.flatMap g).length = n * xs.length := by
  simp [List.length_flatMap, h, Nat.mul_comm]

/-! ## Rows -/

theorem sessionRows_exec : ∀ row ∈ sessionRows p,
    ∃ act, ∀ s, exec row.1 s = runCommand (hasCode row.2) true act p s := by
  simp only [sessionRows, List.forall_mem_cons, List.not_mem_nil, false_imp_iff, implies_true, and_true]
  exact ⟨⟨_, fun _ => rfl⟩, ⟨_, fun _ => rfl⟩, ⟨_, fun _ => rfl⟩, ⟨_, fun _ => rfl⟩, ⟨_, fun _ => rfl⟩, ⟨_, fun _ => rfl⟩,
    ⟨_, fun _ => rfl⟩, ⟨_, fun _ => rfl⟩, ⟨_, fun _ => rfl⟩, ⟨_, fun _ => rfl⟩, ⟨_, fun _ => rfl⟩, ⟨_, fun _ => rfl⟩,
    ⟨_, fun _ => rfl⟩, ⟨_, fun _ => rfl⟩, ⟨_, fun _ => rfl⟩⟩

theorem eitherStateRows_exec : ∀ row ∈ eitherStateRows p,
    (∃ act, ∀ s, exec row.1 s = runCommand (hasCode row.2) false act p s) ∨ row = (.resend p, 0x04) := by
  simp only [eitherStateRows, List.forall_mem_cons, List.not_mem_nil, false_imp_iff, implies_true, and_true]
  exact ⟨.inl ⟨_, fun _ => rfl⟩, .inl ⟨_, fun _ => rfl⟩, .inr trivial⟩

theorem cadenceRows_exec : ∀ row ∈ cadenceRows p,
    ∀ s, exec row.1 s = runCommand (Frame.isCadence row.2) true (setCadenceAction p) p s := by
  simp only [cadenceRows, List.forall_mem_cons, List.not_mem_nil, false_imp_iff, implies_true, and_true]
  exact ⟨fun _ => rfl, fun _ => rfl, fun _ => rfl, fun _ => rfl⟩

theorem hasUnknownCode_iff : hasUnknownCode f = true ↔ f.code ∉ commandCodes := by
  simp [hasUnknownCode]

/-! ## Checks 1 and 3 -/

section

variable (hr : s.resetLow = false) (hw : (s.host p).work = .taken f) {mine : Frame → Bool} (hm : mine f = true)
  {needs : Bool} {act : State → Frame → Answer}

include hr hw hm

theorem runCommand_badFrame (hcrc : f.crcOk = false) :
    runCommand mine needs act p s = .next (s.respond p f.tag .badFrame []) := by
  rw [runCommand_taken hr hw hm]
  simp [State.execute, hcrc]

theorem runCommand_noSession (hcrc : f.crcOk = true) (hclosed : (s.session p).isOpen = false) :
    runCommand mine true act p s = .next (s.respond p f.tag .noSession []) := by
  rw [runCommand_taken hr hw hm]
  simp [State.execute, hcrc, hclosed]

end

theorem execResend_taken (hr : s.resetLow = false) (hw : (s.host p).work = .taken f) (hcode : f.code = codeResend) :
    execResend p s = .next (s.resendAction p f) := by
  simp [execResend, State.whileRunning, hr, s.takenFrame_eq_some.2 hw, hasCode, hcode]

/-! ## STATUS -/

theorem requestEntry_length (r : SweepRequest) : (requestEntry r).length = 7 := rfl

theorem State.portBlock_length (s : State) (p : Port) : (s.portBlock p).length = 14 := rfl

/-- The fixed bytes of the STATUS payload before the port blocks (R195). -/
def State.statusHead (s : State) : List Byte :=
  wordBytes s.tick ++
  [yesNoByte s.round.isSome, portByte s.lastLeader, yesNoByte s.gate.settings.enabled,
   levelByte s.gate.settings.openLevel, byteOf s.gate.settings.abortLimit, portByte s.gate.holder,
   levelByte s.gate.line, gateStateByte s.gate.observed, byteOf s.definedCount, byteOf s.nextId]

theorem State.statusHead_length (s : State) : s.statusHead.length = 12 := rfl

theorem State.statusPayload_eq (s : State) :
    s.statusPayload =
      s.statusHead ++ (s.portBlock .a ++ (s.portBlock .b ++ (byteOf s.queue.length :: s.queue.flatMap requestEntry))) := by
  simp [statusPayload, statusHead]

theorem State.definedCount_eq (s : State) :
    s.definedCount = (Finset.univ.filter fun k : SlotNo => s.slot k ≠ none).card := by
  rw [definedCount, List.countP_eq_length_filter, ← List.toFinset_card_of_nodup ((List.nodup_finRange _).filter _)]
  congr 1
  ext k
  simp [Option.isSome_iff_ne_none]

end Sys2Proof.Machine

namespace Sys2Proof.Proofs

open Sys2Proof.Machine

/-- Settles O36: the records taken are the first ones, and only those behind them can still hold the line low. -/
theorem fetchCommand : Obligations.FetchCommand := by
  intro s p f h
  refine ⟨fun hcount => h.refuses (act := fetchAction p) ?_, fun n hf hpos hle => ⟨?_, ?_, ?_⟩⟩
  · have harg : fetchArg f.payload = none := by
      by_contra hsome
      obtain ⟨m, hm⟩ := Option.ne_none_iff_exists'.1 hsome
      obtain ⟨hwf, hf⟩ := fetchArg_eq_some.1 hm
      have hrange := (fetchCountWellFormed_iff m).1 hwf
      have hbyte := byteOf_toNat (show m < 256 by omega)
      obtain h0 | h8 := hcount _ hf
      · rw [h0] at hbyte
        simp at hbyte
        omega
      · have h8 : 8 < (byteOf m).toNat := h8
        omega
    simp only [fetchAction, harg]
  · have hrange : 1 ≤ n.toNat ∧ n.toNat ≤ 8 := ⟨hpos, hle⟩
    have harg : fetchArg f.payload = some n.toNat := by
      rw [fetchArg_eq_some, byteOf_toNat_self]
      exact ⟨(fetchCountWellFormed_iff _).2 hrange, hf⟩
    refine h.accepts (act := fetchAction p) ?_
    simp only [fetchAction, harg, EventQueue.take_deliver, EventQueue.deliver_length, List.flatMap_map, recordBytes_fetched, List.length_map,
      EventQueue.undelivered, List.countP_eq_length_filter]
    rfl
  · simp only [List.length_append, flatMap_length_const recordBytes_length]
    simp
  · have hany := EventQueue.any_deliver (s.events p) n.toNat
    rw [EventQueue.deliver] at hany
    simp only [State.attentionLow, State.respond_session, State.setEvents_session, h.isOpen, State.respond_events,
      State.setEvents_events, if_true, Bool.true_and]
    refine (Eq.congr_left hany).trans ?_
    simp

/-- Settles O38: the teardown keeps the counter of the session, from which the next number comes. -/
theorem openAndCloseCommands : Obligations.OpenAndCloseCommands := by
  intro s p f
  have hpayload : openPayload = [0x23, 0x40, 0x01, 32, 4, 5, 4, 3, 24, 8, 60, 120] := rfl
  refine ⟨fun h hclosed => ?_, fun h hopen => ?_, fun h => ?_⟩
  · refine (h.runs (act := fun s _ => .accept (s.applyOpen p) openPayload)).trans ?_
    rw [State.applyOpen, if_neg (by simp [hclosed]), hpayload]
    rfl
  · refine (h.runs (act := fun s _ => .accept (s.applyOpen p) openPayload)).trans ?_
    rw [State.applyOpen, if_pos hopen, hpayload, State.openNew, State.teardown_session]
    rfl
  · refine h.accepts (act := fun s _ => .accept (s.applyClose p) []) ?_
    rw [State.applyClose]
    simp only [State.teardown_session]

/-- Settles O39: the five steps of a teardown, read field by field. -/
protected theorem teardown : Obligations.Teardown := by
  intro s p
  refine ⟨?_, by simp, by simp [Cadence.stop], by simp [Cadence.stop], by simp [Cadence.stop], fun k => by simp, by simp,
    by simp [State.attentionLow], by simp, by simp, by simp, by simp, fun q => by simp, by simp, by simp, by simp, by simp,
    by simp, by simp, by simp⟩
  rw [State.teardown_queue]
  exact List.filterMap_congr fun r _ => teardownFate_kept p r

/-- Settles O44: by the definitions of an answer and of its placement. -/
theorem answerAndPlacement : Obligations.AnswerAndPlacement := by
  refine ⟨fun s p tag st payload => rfl, fun s p r hr hw => ?_⟩
  refine (s.whileRunning_running (fun s => s.setHost p (s.host p).place) hr).trans ?_
  simp only [HostPort.place, hw]

/-- Settles O45: each row hands its frame to the checks, and RESEND makes the first check itself. -/
theorem firstThreeChecks : Obligations.FirstThreeChecks := by
  intro s p f hr hw
  refine ⟨fun hcrc => ⟨fun row hrow hcode => ?_, fun row hrow hcode haction => ?_, fun hunlisted => ?_⟩,
    fun hcrc hunlisted => ?_, fun hcrc hclosed => ⟨fun row hrow hcode => ?_, fun row hrow hcode haction => ?_⟩⟩
  · rcases List.mem_append.1 hrow with hrow | hrow
    · obtain ⟨act, hexec⟩ := sessionRows_exec row hrow
      rw [hexec, runCommand_badFrame hr hw (hasCode_iff.2 hcode) hcrc]
    · rcases eitherStateRows_exec row hrow with ⟨act, hexec⟩ | rfl
      · rw [hexec, runCommand_badFrame hr hw (hasCode_iff.2 hcode) hcrc]
      · refine (execResend_taken hr hw hcode).trans ?_
        rw [State.resendAction, if_neg (by simp [hcrc])]
  · rw [cadenceRows_exec row hrow, runCommand_badFrame hr hw (isCadence_iff.2 ⟨hcode, haction⟩) hcrc]
  · exact runCommand_badFrame hr hw (hasUnknownCode_iff.2 hunlisted) hcrc
  · refine (runCommand_taken hr hw (hasUnknownCode_iff.2 hunlisted)).trans ?_
    simp [State.execute, hcrc, State.respondAnswer]
  · obtain ⟨act, hexec⟩ := sessionRows_exec row hrow
    rw [hexec, runCommand_noSession hr hw (hasCode_iff.2 hcode) hcrc hclosed]
  · rw [cadenceRows_exec row hrow, runCommand_noSession hr hw (isCadence_iff.2 ⟨hcode, haction⟩) hcrc hclosed]

/-- Settles O46: the payload in four parts of known lengths. -/
theorem statusCommand : Obligations.StatusCommand := by
  intro s p f h
  have hhead := s.statusHead_length
  have ha := s.portBlock_length .a
  have hb := s.portBlock_length .b
  have hdrop12 : s.statusPayload.drop 12 =
      s.portBlock .a ++ (s.portBlock .b ++ (byteOf s.queue.length :: s.queue.flatMap requestEntry)) := by
    rw [State.statusPayload_eq, List.drop_left' hhead]
  have hdrop26 : s.statusPayload.drop 26 = s.portBlock .b ++ (byteOf s.queue.length :: s.queue.flatMap requestEntry) := by
    rw [show 26 = 12 + 14 from rfl, ← List.drop_drop, hdrop12, List.drop_left' ha]
  refine ⟨h.runs (act := fun s _ => .accept s s.statusPayload), ?_, s.definedCount_eq, ?_, ?_, ?_, ?_, fun q => ?_⟩
  · rw [State.statusPayload_eq]
    simp only [List.length_append, List.length_cons, hhead, ha, hb, flatMap_length_const requestEntry_length]
    omega
  · rw [State.statusPayload_eq, List.take_left' hhead]
    rfl
  · rw [hdrop12, List.take_left' ha]
  · rw [hdrop26, List.take_left' hb]
  · rw [show 40 = 26 + 14 from rfl, ← List.drop_drop, hdrop26, List.drop_left' hb]
  · rw [State.portBlock]
    simp only [List.countP_eq_length_filter]
    rfl

/-- Settles O47: the last-response copy decides. -/
theorem resendCommand : Obligations.ResendCommand := by
  intro s p f h
  have hexec : exec (.resend p) s = .next (s.resendAction p f) := execResend_taken h.running h.taken h.code_eq
  rw [State.resendAction, if_pos h.crc] at hexec
  refine ⟨fun r hr => ?_, fun hr => ?_⟩
  · have hresponse : s.resendResponse p f.tag = { r with tag := f.tag } := by simp only [State.resendResponse, hr]
    rw [hexec, hresponse]
    rfl
  · have hresponse : s.resendResponse p f.tag =
        { tag := f.tag, status := .notFound, session := (s.session p).number, payload := [] } := by
      simp only [State.resendResponse, hr]
    rw [hexec, hresponse]
    rfl

end Sys2Proof.Proofs
end

section
/-! PROOFS. The wire of a host port (R174–R180): the edges of its clock and of its select, and a whole transaction, bit by bit. -/

namespace Sys2Proof.Machine

variable {s : State} {p : Port} {h : HostPort} {f : Frame}

/-! ## The bits of a byte -/

theorem byteOfBits_append (bs : List Bool) (b : Bool) : byteOfBits (bs ++ [b]) = (byteOfBits bs <<< 1) ||| flagBit b 0 := by
  simp [byteOfBits]

/-- The last bit taken in is the least significant one. -/
theorem byteOfBits_getElem (bs : List Bool) {i : Nat} (hi : i < 8) : (byteOfBits bs)[i] = bs.reverse.getD i false := by
  induction bs using List.reverseRecOn generalizing i with
  | nil => simp [byteOfBits]
  | append_singleton bs b ih =>
    rw [byteOfBits_append, List.reverse_append]
    cases i with
    | zero => simp [flagBit_getElem]
    | succ i =>
      simp [flagBit_getElem, ih (show i < 8 by omega)]

theorem bitsOf_eq (b : Byte) :
    bitsOf b = [b.getMsbD 0, b.getMsbD 1, b.getMsbD 2, b.getMsbD 3, b.getMsbD 4, b.getMsbD 5, b.getMsbD 6, b.getMsbD 7] := rfl

theorem byteOfBits_bitsOf (b : Byte) : byteOfBits (bitsOf b) = b := by
  refine BitVec.eq_of_getElem_eq fun i hi => ?_
  rw [byteOfBits_getElem _ hi, bitsOf_eq]
  simp only [BitVec.getMsbD_eq_getLsbD]
  match i, hi with
  | 0, _ | 1, _ | 2, _ | 3, _ | 4, _ | 5, _ | 6, _ | 7, _ => simp

/-! ## Sampling -/

theorem Transaction.sample_of_room {t : Transaction} (ht : t.bits.length < 7) (b : Bool) :
    t.sample b = { t with bits := t.bits ++ [b] } := by
  rw [sample, if_pos ht]

/-- The eighth bit completes a byte (R174). -/
theorem Transaction.sample_eighth {t : Transaction} {b : Byte} (ht : t.bits = (bitsOf b).take 7) :
    t.sample (b.getMsbD 7) = { t with received := t.received ++ [b], bits := [] } := by
  have hbyte : byteOfBits (t.bits ++ [b.getMsbD 7]) = b := by
    rw [ht]
    exact byteOfBits_bitsOf b
  rw [sample, if_neg (by rw [ht, bitsOf_eq]; simp), hbyte]

theorem Transaction.sample_bits (bs : List Bool) (t : Transaction) (ht : t.bits.length + bs.length ≤ 7) :
    bs.foldl sample t = { t with bits := t.bits ++ bs } := by
  induction bs generalizing t with
  | nil => simp
  | cons b bs ih =>
    rw [List.length_cons] at ht
    rw [List.foldl_cons, sample_of_room (by omega), ih _ (by simp; omega)]
    simp

theorem Transaction.sample_byte (t : Transaction) (ht : t.bits = []) (b : Byte) :
    (bitsOf b).foldl sample t = { t with received := t.received ++ [b], bits := [] } := by
  have hsplit : bitsOf b = (bitsOf b).take 7 ++ [b.getMsbD 7] := rfl
  rw [hsplit, List.foldl_append, sample_bits _ t (by simp [ht, bitsOf]), List.foldl_cons, List.foldl_nil,
    sample_eighth (by simp [ht])]

theorem Transaction.sample_bytes (bytes : List Byte) (t : Transaction) (ht : t.bits = []) :
    (bytes.flatMap bitsOf).foldl sample t = { t with received := t.received ++ bytes } := by
  induction bytes generalizing t with
  | nil => simp
  | cons b bytes ih =>
    rw [List.flatMap_cons, List.foldl_append, sample_byte t ht, ih _ rfl]
    simp [ht]

/-! ## A port under its clock -/

/-- The two edges that carry a bit (R174). -/
def edgesOf (bit : Bool) : List ClockEdge := [.rising bit, .falling]

theorem HostPort.clock_bit (p : Port) (bit : Bool) {t : Transaction} (ht : h.transaction = some t) :
    ∃ x, (edgesOf bit).foldl (HostPort.clock p) h = { h with transaction := some (t.sample bit), sdo := x } := by
  simp only [edgesOf, List.foldl_cons, List.foldl_nil, HostPort.clock, ht]
  exact ⟨_, rfl⟩

theorem HostPort.clock_bits (p : Port) (bits : List Bool) (h : HostPort) (t : Transaction) (ht : h.transaction = some t) :
    ∃ x, (bits.flatMap edgesOf).foldl (HostPort.clock p) h =
      { h with transaction := some (bits.foldl Transaction.sample t), sdo := x } := by
  induction bits generalizing h t with
  | nil => exact ⟨h.sdo, by rw [List.foldl_nil, ← ht]; rfl⟩
  | cons bit bits ih =>
    obtain ⟨y, hy⟩ := h.clock_bit p bit ht
    obtain ⟨x, hx⟩ := ih { h with transaction := some (t.sample bit), sdo := y } (t.sample bit) rfl
    exact ⟨x, by rw [List.flatMap_cons, List.foldl_append, hy, hx]; rfl⟩

/-! ## The end of a transaction -/

section

variable {t : Transaction} {r : Outgoing}

theorem HostPort.finish_of_none (hcs : h.csLow = true) (ht : h.transaction = none) :
    h.finish = { h with csLow := false, sdo := none } := by
  simp only [finish, hcs, ht, if_true]

theorem HostPort.finish_of_some (hcs : h.csLow = true) (ht : h.transaction = some t) :
    h.finish = { h.settleResponse t with csLow := false, work := h.workAfter t, transaction := none, sdo := none } := by
  simp only [finish, hcs, ht, if_true]

theorem HostPort.settleResponse_of_none (hc : h.clockedOut t = none) : h.settleResponse t = h := by
  simp only [settleResponse, hc]

theorem HostPort.settleResponse_of_some (hc : h.clockedOut t = some r) :
    h.settleResponse t =
      { h with buffer := none, lastResponse := if r.ofResend then h.lastResponse else some r.response } := by
  simp only [settleResponse, hc]

theorem HostPort.workAfter_of_not (hm : h.mayTake t = false) : h.workAfter t = h.work := by
  unfold workAfter
  cases readFrame t.received
  · rfl
  · rw [hm]
    rfl

theorem HostPort.workAfter_of_may (hm : h.mayTake t = true) :
    h.workAfter t = (readFrame t.received).elim h.work Work.taken := by
  unfold workAfter
  cases readFrame t.received
  · rfl
  · exact if_pos hm

theorem HostPort.clockedOut_response (hm : t.marker = .response) (hb : h.buffer = some r) :
    h.clockedOut t = if (responseBytes r.response).length ≤ t.received.length then some r else none := by
  simp only [clockedOut, hm, hb]

end

/-! ## A whole transaction -/

/-- The hub with port `p` at `h` and the commands `rest` waiting. -/
def State.portAt (s : State) (p : Port) (h : HostPort) (rest : List Instr) : State := { s with pending := rest }.setHost p h

theorem run_succ {t : State} {k : Nat} (hstep : step s = .next t) :
    Host.Core.run Sys2Proof.core (k + 1) s = Host.Core.run Sys2Proof.core k t := by
  have hcore : Sys2Proof.core.step s = .next t := hstep
  simp only [Host.Core.run, hcore]

theorem step_portAt (s : State) (p : Port) (h : HostPort) (c : Instr) (rest : List Instr) :
    step (s.portAt p h (c :: rest)) = exec c (s.portAt p h rest) := rfl

section

variable (hr : s.resetLow = false)

include hr

theorem exec_clock_portAt (e : ClockEdge) (rest : List Instr) :
    exec (.serialClockEdge p e) (s.portAt p h rest) = .next (s.portAt p (h.clock p e) rest) := by
  refine ((s.portAt p h rest).whileRunning_running (fun s => s.setHost p ((s.host p).clock p e)) hr).trans ?_
  simp [State.portAt]

theorem exec_select_portAt (low : Bool) (act : HostPort → HostPort) (rest : List Instr) :
    (s.portAt p h rest).chipSelectEdge p low act = s.portAt p (act h) rest := by
  simp [State.portAt, State.chipSelectEdge, hr]

theorem run_edges (es : List ClockEdge) (h : HostPort) (rest : List Instr) (k : Nat) :
    Host.Core.run Sys2Proof.core (es.length + k) (s.portAt p h (es.map (Instr.serialClockEdge p) ++ rest)) =
      Host.Core.run Sys2Proof.core k (s.portAt p (es.foldl (HostPort.clock p) h) rest) := by
  induction es generalizing h with
  | nil => simp
  | cons e es ih =>
    rw [List.map_cons, List.cons_append, List.length_cons, Nat.add_right_comm,
      run_succ ((step_portAt s p h _ _).trans (exec_clock_portAt hr e _)), ih, List.foldl_cons]

/-- A transaction from its start to its end, as its port sees it. -/
theorem run_transaction (bytes : List Byte) (h : HostPort) :
    Host.Core.run Sys2Proof.core (transactionEvents p bytes).length (s.portAt p h (transactionEvents p bytes)) =
      .next (s.portAt p (((bytes.flatMap bitsOf).flatMap edgesOf).foldl (HostPort.clock p) h.start).finish []) := by
  have hevents : transactionEvents p bytes = .transactionStart p ::
      (((bytes.flatMap bitsOf).flatMap edgesOf).map (Instr.serialClockEdge p) ++ [.transactionEnd p]) := by
    rw [List.map_flatMap]
    rfl
  have hstart (rest : List Instr) : exec (.transactionStart p) (s.portAt p h rest) = .next (s.portAt p h.start rest) :=
    congrArg Host.Outcome.next (exec_select_portAt hr true HostPort.start rest)
  have hend (h : HostPort) : exec (.transactionEnd p) (s.portAt p h []) = .next (s.portAt p h.finish []) :=
    congrArg Host.Outcome.next (exec_select_portAt hr false HostPort.finish [])
  rw [hevents, List.length_cons, List.length_append, List.length_map,
    run_succ ((step_portAt s p h _ _).trans (hstart _)), run_edges hr, List.length_singleton,
    run_succ ((step_portAt s p _ _ _).trans (hend _))]
  rfl

end

/-- An idle port with nothing pending takes the frame that its host clocks in (R175, R180). -/
theorem HostPort.takes (hcs : h.csLow = false) (hw : h.work = .none) (hb : h.buffer = none) {bytes : List Byte}
    (hframe : readFrame bytes = some f) (p : Port) :
    (((bytes.flatMap bitsOf).flatMap edgesOf).foldl (HostPort.clock p) h.start).finish =
      { h with work := .taken f, transaction := none, sdo := none } := by
  have hmarker : h.marker = .none := by simp [HostPort.marker, HostPort.executing, hw, hb]
  obtain ⟨x, hx⟩ := HostPort.clock_bits p (bytes.flatMap bitsOf) h.start { marker := .none, received := [], bits := [] }
    (by simp [HostPort.start, hcs, hmarker])
  rw [hx, Transaction.sample_bytes bytes _ rfl]
  simp [HostPort.start, HostPort.finish, hcs, HostPort.settleResponse, HostPort.clockedOut, HostPort.workAfter,
    HostPort.mayTake, hframe]

end Sys2Proof.Machine

namespace Sys2Proof.Proofs

open Sys2Proof.Machine

/-- Settles O51: bit by bit to the bytes, and from the bytes to the frame. -/
theorem clockedFrameIsTaken : Obligations.ClockedFrameIsTaken := by
  intro s p f fill hr hcs htr hw hb hcode hlen hpending
  have hframe : readFrame (frameBytes f ++ fill) = some f := frameReading.1 f fill hcode hlen
  have hstart : s = s.portAt p (s.host p) (transactionEvents p (frameBytes f ++ fill)) := by
    rw [← hpending]
    exact (State.setHost_self s p).symm
  have hrun := run_transaction (p := p) hr (frameBytes f ++ fill) (s.host p)
  rw [← hstart, HostPort.takes hcs hw hb hframe, ← hpending] at hrun
  rw [hrun, ← htr]
  rfl

/-- Settles O40: the executing flag and the buffer choose the marker. -/
theorem transactionStart : Obligations.TransactionStart := by
  intro s p hr hcs
  have hexec : exec (.transactionStart p) s = .next (s.setHost p (s.host p).start) := by
    refine congrArg Host.Outcome.next ?_
    rw [State.chipSelectEdge, if_neg (by simp [hr])]
  have hstart (m : Marker) (hm : (s.host p).marker = m) : (s.host p).start =
      { s.host p with
        csLow := true
        transaction := some { marker := m, received := [], bits := [] }
        sdo := some (((s.host p).byteSent m 0).getMsbD 0) } := by
    rw [HostPort.start, if_neg (by simp [hcs]), hm]
    rfl
  rw [hexec]
  refine ⟨fun hw => ⟨?_, fun n => rfl⟩, fun r hw hb => ⟨?_, fun n => ?_⟩, fun hw hb => ⟨?_, fun n => ?_⟩⟩
  · rw [hstart .busy (by simp [HostPort.marker, HostPort.executing, hw])]
  · rw [hstart .response (by simp [HostPort.marker, HostPort.executing, hw, hb])]
  · simp only [HostPort.byteSent, hb]
    rfl
  · rw [hstart .none (by simp [HostPort.marker, HostPort.executing, hw, hb])]
  · rfl

/-- Settles O41: the eighth bit completes a byte. -/
theorem serialClockEdges : Obligations.SerialClockEdges := by
  intro s p hr
  have hexec (e : ClockEdge) : exec (.serialClockEdge p e) s = .next (s.setHost p ((s.host p).clock p e)) :=
    s.whileRunning_running (fun s => s.setHost p ((s.host p).clock p e)) hr
  refine ⟨fun t ht => ⟨fun sdi hroom => ?_, fun b hbits => ?_, ?_⟩, fun ht hcs => ?_⟩
  · rw [hexec]
    simp only [HostPort.clock, ht, Transaction.sample_of_room hroom]
  · rw [hexec]
    simp only [HostPort.clock, ht, Transaction.sample_eighth hbits]
  · rw [hexec]
    simp only [HostPort.clock, ht]
    rfl
  · have hdrive : (s.host p).clock p .falling = (s.host p).driveOpen p := by
      simp only [HostPort.clock, ht, hcs, if_true]
    rw [hexec, hdrive]
    rfl

/-- Settles O42: the marker decides what the edge does with the response and with the frame. -/
theorem transactionEnd : Obligations.TransactionEnd := by
  intro s p hr hcs
  have hexec : exec (.transactionEnd p) s = .next (s.setHost p (s.host p).finish) := by
    refine congrArg Host.Outcome.next ?_
    rw [State.chipSelectEdge, if_neg (by simp [hr])]
  rw [hexec]
  refine ⟨fun ht => ?_, fun t ht => ⟨fun hm => ?_, fun hm => ?_, fun r hm hb => ⟨fun hshort => ?_, fun hwhole => ?_⟩⟩⟩
  · rw [HostPort.finish_of_none hcs ht, ht]
  · have hc : (s.host p).clockedOut t = none := by simp only [HostPort.clockedOut, hm]
    rw [HostPort.finish_of_some hcs ht, HostPort.settleResponse_of_none hc,
      HostPort.workAfter_of_not (by simp only [HostPort.mayTake, hm])]
  · have hc : (s.host p).clockedOut t = none := by simp only [HostPort.clockedOut, hm]
    rw [HostPort.finish_of_some hcs ht, HostPort.settleResponse_of_none hc,
      HostPort.workAfter_of_may (by simp only [HostPort.mayTake, hm])]
    cases readFrame t.received <;> rfl
  · have hc := (HostPort.clockedOut_response hm hb).trans (if_neg (Nat.not_le.2 hshort))
    rw [HostPort.finish_of_some hcs ht, HostPort.settleResponse_of_none hc,
      HostPort.workAfter_of_not (by simp only [HostPort.mayTake, hm, hc, Option.isSome_none])]
  · have hc := (HostPort.clockedOut_response hm hb).trans (if_pos hwhole)
    rw [HostPort.finish_of_some hcs ht, HostPort.settleResponse_of_some hc,
      HostPort.workAfter_of_may (by simp only [HostPort.mayTake, hm, hc, Option.isSome_some])]
    cases readFrame t.received <;> rfl

end Sys2Proof.Proofs
end

section
/-! PROOFS. The block and its queue: what changes nothing (logs 2, 3, 4), device reset and its release (R65, R86), the values
at reset and the invariants there, and the phases of a lane (R69–R73). -/

namespace Sys2Proof.Machine

variable {s : State} {p : Port} {f : Frame} {l : LaneNo} {x : Lane}

/-! ## What changes nothing -/

theorem State.whileRunning_of_idle {g : State → State} (hg : g s = s) : s.whileRunning g = .next s := by
  unfold whileRunning
  rw [hg, ite_self]

/-- A row executes only a frame of its own that its port has taken (log 3). -/
theorem runCommand_of_other {mine : Frame → Bool} {needs : Bool} {act : State → Frame → Answer}
    (h : ∀ f, (s.host p).work = .taken f → mine f = false) : runCommand mine needs act p s = .next s := by
  refine State.whileRunning_of_idle ?_
  split
  · rfl
  · rename_i f hf
    rw [h f (s.takenFrame_eq_some.1 hf)]
    rfl

theorem execResend_of_other (h : ∀ f, (s.host p).work = .taken f → f.code ≠ codeResend) : execResend p s = .next s := by
  refine State.whileRunning_of_idle ?_
  split
  · rfl
  · rename_i f hf
    rw [if_neg (by simpa [hasCode] using h f (s.takenFrame_eq_some.1 hf))]

theorem State.setLane_self (s : State) (l : LaneNo) : s.setLane l (s.lane l) = s := by
  have hlanes : s.lanes.set l.val s.lanes[l] l.isLt = s.lanes := Vector.set_getElem_self l.isLt
  rw [setLane, lane, hlanes]

theorem State.whileRunning_setLane {g : Lane → Lane} (hg : g (s.lane l) = s.lane l) :
    s.whileRunning (fun s => s.setLane l (g (s.lane l))) = .next s :=
  whileRunning_of_idle (by rw [hg, setLane_self])

theorem State.whileRunning_setHost {g : HostPort → HostPort} (hg : g (s.host p) = s.host p) :
    s.whileRunning (fun s => s.setHost p (g (s.host p))) = .next s :=
  whileRunning_of_idle (by rw [hg, setHost_self])

/-- An edge of xCS# to the level at which the pin stands is no edge (log 3). -/
theorem State.chipSelectEdge_of_same {low : Bool} {act : HostPort → HostPort} (hcs : (s.host p).csLow = low)
    (hact : act (s.host p) = s.host p) : s.chipSelectEdge p low act = s := by
  rw [chipSelectEdge, hact, ← hcs]
  exact (congrArg (s.setHost p) (ite_self _)).trans (s.setHost_self p)

theorem Lane.afterDischarge_of_ne (h : x.state ≠ .discharge) : x.afterDischarge = x := by
  unfold afterDischarge
  split
  · exact absurd ‹_› h
  · rfl

theorem Lane.afterPhase_of_ne (hc : x.state ≠ .pulsing .charge) (hg : x.state ≠ .pulsing .gapAfterCharge) :
    x.afterPhase = x := by
  unfold afterPhase
  split
  · exact absurd ‹_› hc
  · exact absurd ‹_› hg
  · rfl

theorem Lane.afterTransfer_of_ne {crossed : Bool} (h : x.state ≠ .pulsing .transfer) : x.afterTransfer crossed = x := by
  unfold afterTransfer
  split
  · exact absurd ‹_› h
  · rfl

theorem Lane.afterPulse_of_ne (h : ∀ crossed, x.state ≠ .pulsing (.gapAfterTransfer crossed)) : x.afterPulse = x := by
  unfold afterPulse
  split
  · exact absurd ‹_› (h _)
  · rfl

theorem State.lanePulseEnd_of_ne (h : ∀ crossed, (s.lane l).state ≠ .pulsing (.gapAfterTransfer crossed)) :
    s.lanePulseEnd l = s := by
  rw [lanePulseEnd, Lane.afterPulse_of_ne h]
  simp only [setLane_self]
  exact if_neg fun hh => hh.1 hh.2

theorem State.takeTick_of_idle (h : (s.cadence p).running = false ∨ (s.cadence p).owed = 0) : s.takeTick p = s := by
  rw [takeTick]
  exact if_neg fun hh => by
    obtain h | h := h <;> simp [h] at hh

theorem HostPort.clock_of_idle {h : HostPort} {edge : ClockEdge} (ht : h.transaction = none)
    (hedge : h.csLow = false ∨ ∃ sdi, edge = .rising sdi) : h.clock p edge = h := by
  cases edge with
  | rising sdi => simp only [clock, ht]
  | falling =>
    have hcs : h.csLow = false := hedge.resolve_right (by simp)
    simp only [clock, ht, hcs]
    rfl

theorem HostPort.place_of_idle {h : HostPort} (hw : ∀ r, h.work ≠ .answered r) : h.place = h := by
  unfold place
  split
  · exact absurd ‹_› (hw _)
  · rfl

/-- A host command's row does nothing where its port has taken no frame of its own. -/
theorem exec_of_other_code {row : Instr × Byte} (hrow : row ∈ sessionRows p ++ eitherStateRows p)
    (h : ∀ f, (s.host p).work = .taken f → f.code ≠ row.2) : exec row.1 s = .next s := by
  have hcode : ∀ f, (s.host p).work = .taken f → hasCode row.2 f = false := fun f hw => by simpa [hasCode] using h f hw
  rcases List.mem_append.1 hrow with hrow | hrow
  · obtain ⟨act, hexec⟩ := sessionRows_exec row hrow
    rw [hexec, runCommand_of_other hcode]
  · rcases eitherStateRows_exec row hrow with ⟨act, hexec⟩ | rfl
    · rw [hexec, runCommand_of_other hcode]
    · exact execResend_of_other h

theorem exec_of_other_action {row : Instr × CadenceAction} (hrow : row ∈ cadenceRows p)
    (h : ∀ f, (s.host p).work = .taken f → Frame.isCadence row.2 f = false) : exec row.1 s = .next s := by
  rw [cadenceRows_exec row hrow, runCommand_of_other h]

end Sys2Proof.Machine

namespace Sys2Proof.Proofs

open Sys2Proof.Machine

/-- Settles O1: by the definition of a step. -/
theorem stepRunsFrontCommand : Obligations.StepRunsFrontCommand := fun _ _ _ => rfl

/-- Settles O2: an event that cannot arise leaves its lane, its timer or its port as it is. -/
theorem nothingToDoChangesNothing : Obligations.NothingToDoChangesNothing := by
  refine ⟨fun s h => ?_, fun s quiet hr => ?_, fun s l h => ?_, fun s l hc hg => ?_, fun s l crossed h => ?_, fun s l h => ?_,
    fun s p h => ?_, fun s p hcs => ?_, fun s p hcs => ?_, fun s p edge ht hedge => ?_, fun s p hw => ?_, fun s p hw c hc => ?_,
    fun s p f hw => ⟨fun row hrow hcode => ?_, fun row hrow hother => ?_, fun hlisted => ?_⟩⟩
  · simp only [step, h]
  · exact congrArg Host.Outcome.next (if_neg (by simp [hr]))
  · exact State.whileRunning_setLane (Lane.afterDischarge_of_ne h)
  · exact State.whileRunning_setLane (Lane.afterPhase_of_ne hc hg)
  · exact State.whileRunning_setLane (g := fun x => x.afterTransfer crossed) (Lane.afterTransfer_of_ne h)
  · exact State.whileRunning_of_idle (g := fun s => s.lanePulseEnd l) (State.lanePulseEnd_of_ne h)
  · exact State.whileRunning_of_idle (g := fun s => s.takeTick p) (State.takeTick_of_idle h)
  · exact congrArg Host.Outcome.next (State.chipSelectEdge_of_same hcs (if_pos hcs))
  · exact congrArg Host.Outcome.next (State.chipSelectEdge_of_same hcs (if_neg (by simp [hcs])))
  · exact State.whileRunning_setHost (g := fun h => h.clock p edge) (HostPort.clock_of_idle ht hedge)
  · exact State.whileRunning_setHost (HostPort.place_of_idle hw)
  · have hidle {P : Frame → Prop} : ∀ f, (s.host p).work = .taken f → P f := fun f hf => absurd hf (hw f)
    rw [List.cons_append, List.mem_cons, List.mem_append, List.mem_map, List.mem_map] at hc
    obtain rfl | ⟨row, hrow, rfl⟩ | ⟨row, hrow, rfl⟩ := hc
    · exact runCommand_of_other hidle
    · exact exec_of_other_code hrow hidle
    · exact exec_of_other_action hrow hidle
  · refine exec_of_other_code hrow fun g hg => ?_
    obtain rfl := Work.taken.inj (hw.symm.trans hg)
    exact hcode
  · refine exec_of_other_action hrow fun g hg => Bool.eq_false_iff.2 fun hm => ?_
    obtain rfl := Work.taken.inj (hw.symm.trans hg)
    obtain ⟨hcode, haction⟩ := isCadence_iff.1 hm
    obtain hne | ⟨hsome, hne⟩ := hother
    · exact hne hcode
    · exact haction.elim hne hsome
  · refine runCommand_of_other fun g hg => Bool.eq_false_iff.2 fun hm => ?_
    obtain rfl := Work.taken.inj (hw.symm.trans hg)
    exact hasUnknownCode_iff.1 hm hlisted

/-- Settles O4: by the reset values of each block. -/
theorem resetValues : Obligations.ResetValues := by
  refine ⟨rfl, State.deviceReset_slot State.reset, fun i => ?_, rfl, rfl, rfl, rfl, fun l => ?_, rfl, rfl, rfl, fun p => ?_⟩
  · simp [State.reset, Config.profileResetLength]
  · have hl : State.reset.lane l = Lane.idle := State.deviceReset_lane State.reset l
    rw [hl]
    exact ⟨rfl, rfl, rfl, rfl, rfl, rfl, rfl, rfl⟩
  · cases p <;> exact ⟨rfl, rfl, rfl, rfl, rfl, rfl, rfl, rfl, rfl, rfl, rfl, rfl⟩

/-- Settles O5: every other command first asks whether RESET# is low. -/
theorem resetEvents : Obligations.ResetEvents := by
  refine ⟨fun s => rfl, fun s quiet hr => ?_, fun s p hr => ⟨?_, ?_⟩, fun s i hr hreset hrelease hcs => ?_⟩
  · refine congrArg Host.Outcome.next ((if_pos hr).trans ?_)
    have hdriven (p : Port) : (s.host p).release p =
        if (s.host p).csLow = true then
          { s.host p with
            sdo := some (Config.openSdo (decide (p = .b)) (s.host p).draws)
            draws := (s.host p).draws + 1 }
        else s.host p := rfl
    simp only [State.release, observedState_eq, ← hdriven]
    rfl
  · refine congrArg Host.Outcome.next ?_
    rw [State.chipSelectEdge, if_pos hr]
  · refine congrArg Host.Outcome.next ?_
    rw [State.chipSelectEdge, if_pos hr]
  · cases i with
    | deviceReset => exact absurd rfl hreset
    | resetRelease quiet => exact absurd rfl (hrelease quiet)
    | transactionStart p => exact absurd rfl (hcs p).1
    | transactionEnd p => exact absurd rfl (hcs p).2
    | _ => exact congrArg Host.Outcome.next (if_pos hr)

/-- Settles O6: each phase ends with its own length. -/
theorem lanePhaseEnds : Obligations.LanePhaseEnds := by
  intro s l hr
  refine ⟨fun hx => ?_, fun hx => ?_, fun hx => ?_, fun crossed hx => ?_⟩
  · refine (s.whileRunning_running (fun s => s.setLane l (s.lane l).afterDischarge) hr).trans ?_
    simp only [Lane.afterDischarge, hx, Lane.enter, Lane.phaseClocks]
    rfl
  · refine (s.whileRunning_running (fun s => s.setLane l (s.lane l).afterPhase) hr).trans ?_
    simp only [Lane.afterPhase, hx, Lane.enter, Lane.phaseClocks]
  · refine (s.whileRunning_running (fun s => s.setLane l (s.lane l).afterPhase) hr).trans ?_
    simp only [Lane.afterPhase, hx, Lane.enter, Lane.phaseClocks]
    rfl
  · refine (s.whileRunning_running (fun s => s.setLane l ((s.lane l).afterTransfer crossed)) hr).trans ?_
    simp only [Lane.afterTransfer, hx, Lane.enter, Lane.phaseClocks]

/-- Settles O8: by the table of R69. -/
theorem lanePins : Obligations.LanePins := by
  intro x pad
  refine ⟨fun hshield => ?_, fun hstate => ⟨?_, ?_⟩, fun hpad => ⟨fun hx => ?_, fun hx => ?_, fun hx => ?_, fun crossed hx => ?_⟩⟩
  · rw [Lane.padPin, if_neg (Bool.eq_false_iff.1 hshield)]
  · cases hx : x.state with
    | pulsing phase => exact absurd hx (hstate phase)
    | _ => simp only [Lane.reservoirPin, hx]
  · cases hx : x.state with
    | pulsing phase => exact absurd hx (hstate phase)
    | _ => simp only [Lane.padPin, hx, ite_self]
  all_goals exact ⟨by simp only [Lane.reservoirPin, hx], by simp only [Lane.padPin, hpad, hx, if_true]⟩

/-- Settles O52: reset is what device reset leaves of itself, where each invariant holds. -/
theorem resetMeetsInvariants : Obligations.ResetMeetsInvariants := by
  obtain ⟨hsession, hcadence, hgate⟩ := State.controlInv_deviceReset State.reset
  obtain ⟨hsubscriber, hstanding⟩ := State.rightsInv_deviceReset State.reset
  obtain ⟨hrounds, harbiter⟩ := State.arbiterInv_deviceReset State.reset
  obtain ⟨hprofile, hslots, hlanes⟩ := State.ConversionInv.deviceReset State.reset
  obtain ⟨hparams, hkeys⟩ := State.slotsInv_iff.1 hslots
  have hqueue {P : SweepRequest → Prop} : ∀ r ∈ State.reset.queue, P r := fun r hr => by cases hr
  have hshare : State.reset.ShareInv := ⟨fun _ => ⟨Nat.zero_le 3, Nat.zero_le 1⟩, List.nodup_nil, hqueue, by decide, by decide⟩
  have hevents : State.reset.EventQueueInv := fun p => by
    have hempty : State.reset.events p = { records := [], nextSeq := 0 } := State.deviceReset_events State.reset p
    rw [hempty]
    obtain ⟨hlength, hrises, hdelivered⟩ := EventQueue.good_empty
    exact ⟨hlength, hrises, hdelivered, fun _ => ⟨rfl, rfl⟩⟩
  have hhost : State.reset.HostPortInv := State.hostPortInv_iff.2 fun p => by
    have hreset : State.reset.host p = HostPort.reset.deviceReset := by cases p <;> rfl
    rw [hreset]
    exact HostPort.Sound.deviceReset _
  exact ⟨hsession, hcadence, hgate, hprofile, hevents, hsubscriber, hparams, hstanding, hshare, hqueue, hqueue,
    hrounds.engaged, hrounds.inFlight, harbiter, hrounds.live, hlanes, hkeys, hhost, fun _ => rfl⟩

end Sys2Proof.Proofs
end
